-- ==== Sys2Proof/Word.lean ====
section
/-!
DEFINITION. The word types of the block and their plainest arithmetic.
-/

namespace Sys2Proof

/-- One 32-bit register (R808). -/
abbrev Word := BitVec 32
/-- A line number, PA[51:7] (R113). -/
abbrev Line := BitVec 45
/-- A folio number, PA[51:12] (R113). -/
abbrev Folio := BitVec 40
/-- The 128 bytes of one line, byte 0 in the lowest bits (R374). -/
abbrev Data := BitVec 1024
/-- One byte-enable for each byte of a line (Table 8.5). -/
abbrev Mask := BitVec 128
/-- A request, snoop or memory tag (R372). -/
abbrev Tag := BitVec 12
/-- An agent ID: bit 5 is the port (R379). -/
abbrev Agent := BitVec 6

/-- A sparse table: keys strictly rising, and no entry equal to what an unlisted key reads as. -/
abbrev Tab (α : Type) := List (Nat × α)

/-- The bit of a Boolean. -/
def bit (b : Bool) : Nat := if b then 1 else 0

/-- Saturating 32-bit addition (Tables 7.19, 9.4, 10.14). -/
def satAdd (w : Word) (n : Nat) : Word := BitVec.ofNat 32 (min (w.toNat + n) 0xFFFFFFFF)

end Sys2Proof
end

