-- ==== Sys2Proof/Syntax.lean ====
section
/-!
DEFINITION. The commands of the block: one constructor for each row of the command table, with its operands.
The types of the operands stand before it.
-/

namespace Sys2Proof

/-- The host ports (R5). -/
inductive HPort where
  | hpa | hpb
  deriving DecidableEq, Repr

/-- The memory ports (R5). -/
inductive MPort where
  | mpa | mpb
  deriving DecidableEq, Repr

/-- The links of Table 13.1. -/
inductive Lnk where
  | hpa | hpb | mpa | mpb | ckl
  deriving DecidableEq, Repr

/-- The register access paths of Table 18.2. -/
inductive Path where
  | hpa | hpb | smbus | jtag | jpc
  deriving DecidableEq, Repr

/-- Who makes a register access: the path and, in-band, the agent and the privilege bit (R810, R389). -/
structure Acc where
  path : Path
  agent : Agent := 0
  priv : Bool := true
  deriving DecidableEq, Repr

/-- The long header of a host request as it arrives on a port (Table 8.3).
`opf` is header bits [127:77]; for CFG requests bits [127:32] are `opf` above `line`. -/
structure ReqHdr where
  port : HPort
  tag : Tag
  agent : Agent
  flag : Bool := false
  priv : Bool := false
  rsv : BitVec 4 := 0
  line : Line
  opf : BitVec 51 := 0
  deriving DecidableEq, Repr

/-- The short header of a snoop response (Table 8.2). -/
structure SnpRsp where
  port : HPort
  tag : Tag
  agent : Agent
  several : Bool := false
  poison : Bool := false
  deriving DecidableEq, Repr

/-- A relayed PEER_BEACON (Table 8.4). -/
structure Beacon where
  seq : Tag
  pairState : BitVec 4
  drainDone : Bool
  adopted : Bool
  cklUp : Bool
  side : Bool
  serial : BitVec 128
  deriving DecidableEq, Repr

/-- A PAIR_HELLO (Table 11.3). -/
structure Hello where
  ctlSeq : Tag
  pairState : BitVec 4
  side : Bool
  variant : BitVec 4
  stepping : BitVec 8
  ratCrc : Word
  proto : BitVec 4
  serial : BitVec 128
  deriving DecidableEq, Repr

/-- A command descriptor as the firmware takes it from a ring (Table 12.3); `args` is bytes 8 to 63. -/
structure Desc where
  ring : Fin 40
  tag : BitVec 16 := 0
  flags : BitVec 8 := 0
  resv : BitVec 24 := 0
  args : BitVec 448 := 0
  priv : Bool := true
  deriving DecidableEq, Repr

/-- Why a stopped island is woken (R78); the rest are the block's own doing. -/
inductive WakeCause where
  | message | access | firmware | refresh
  deriving DecidableEq, Repr

/-- A partner's request in TRAIN_EQ for one transmit tap of a lane: 0 c(−1), 1 c(0), 2 c(1), and its new value (R312, R349). -/
structure TapRequest where
  lane : Fin 24
  tap : Fin 3
  value : BitVec 7
  deriving DecidableEq, Repr

/-- What ALIGN learns of a lane from its training frames: the logical lane, the group, and whether its polarity is inverted (R309). -/
structure LaneLearned where
  lane : Fin 24
  logical : Fin 8
  group : Fin 3
  inverted : Bool
  deriving DecidableEq, Repr

/-- What the partner says in TRAIN_EQ: the lanes that it could not train, and its tap requests in order (R312, R349). -/
structure TrainReport where
  failedTx : BitVec 24
  taps : List TapRequest
  deriving DecidableEq, Repr

/-- What ALIGN brings: the groups and the maximum width, in groups less 1, that the partner reports (R350), and what the training frames
say of the lanes (R309). -/
structure AlignReport where
  groups : BitVec 3
  width : Fin 3
  lanes : List LaneLearned
  deriving DecidableEq, Repr

/-- What a window of the clock check finds: the count of each island that it checks (R100), and the link groups whose reference clock is
lost (R105). -/
structure ClockWindow where
  counts : List (Fin 31 × Nat)
  refLost : List Lnk
  deriving DecidableEq, Repr

/-- What training a channel found (Table 10.6): the failed step 1 to 3 (0 none), the step in which a strobe failed, and each pin that
failed with its step; the pins that a failed strobe serves are among them. -/
structure TrainResult where
  failedStep : Fin 4 := 0
  strobe : Option (Fin 8) := none
  pins : List (Fin 40 × Fin 8) := []
  deriving DecidableEq, Repr

/-- What the SFDP tables of the flash say (R587): whether each quad read is advertised, the dummy cycles of the 1-1-1, 1-1-4 and 1-4-4
reads, whether addresses have 4 bytes, and the erase sizes in bytes. -/
structure SfdpTables where
  quad144 : Bool := true
  quad114 : Bool := true
  dummy111 : Nat := 0
  dummy114 : Nat := 0
  dummy144 : Nat := 0
  fourByte : Bool := false
  erase : List Nat := []
  deriving DecidableEq, Repr

/-- What the boot ROM found in the flash and in the images (R592): the SFDP tables, none where they cannot be read; whether each slot's
image verifies and, if not, its fail cause; the versions; and the data-array record of the image that starts (R449). -/
structure BootFacts where
  sfdp : Option SfdpTables := some ⟨true, true, 0, 0, 0, false, []⟩
  cause0 : BitVec 4 := 0
  cause1 : BitVec 4 := 0
  version0 : Word := 0
  version1 : Word := 0
  record : Option (BitVec 128) := none
  deriving DecidableEq, Repr

/-- What the ink controller has measured of the closing epoch besides the samples that INK_SAMPLE has presented (R707): energies in
units of 0.001 ink, and the mean power in mW of each rail in the order of R704. -/
structure EpochFacts where
  meas : Nat
  est : Nat
  estTask : List Nat
  rails : List Nat
  deriving DecidableEq, Repr

/-- The demand of the tasks in the order of Table 15.2 (R717): chunks, the patrol chunks by target (`true` the data array), and the proof
steps in order, each by the number of its run. -/
structure PlanDemand where
  drain : Nat := 0
  catchup : Nat := 0
  behind : List Bool := []
  proof : List (BitVec 16) := []
  onTime : List Bool := []
  smoothing : Nat := 0
  deriving DecidableEq, Repr

/-- What the firmware's island policy finds (Table 15.3): whether an epoch begins, the islands that have received no message for idle_us,
the slices below the busy threshold and the channels above the queue threshold of the closing epoch. -/
structure PolicyFacts where
  epochEdge : Bool
  idle : BitVec 32
  divide : BitVec 16
  sameBank : BitVec 8
  deriving DecidableEq, Repr

/-- What one proof step found (R748): the location of each fault (a set, a DAC and pin, or a bit), and for DAC_PHY the failing pins,
among them those that a failing strobe serves. -/
structure StepFacts where
  faults : List Word := []
  pins : BitVec 40 := 0
  deriving DecidableEq, Repr

/-- One codeword read by a patrol chunk, and the pins in error (R755). -/
structure PatrolRead where
  line : Line
  half : Bool
  err : BitVec 40
  deriving DecidableEq, Repr

/-- A counter: the island index of its block and its number (R781). -/
structure CtrId where
  island : Fin 31
  k : Fin 10
  deriving DecidableEq, Repr

/-- The selectors of R864. -/
inductive Sel where
  | log | slip | tag (x : Fin 16) | dir (x : Fin 16)
  deriving DecidableEq, Repr

/-- The sweeps that a slice runs (R214, R494, R536, R692). -/
inductive SweepKind where
  | portEvent | channel | promote | mirrorExit
  deriving DecidableEq, Repr

/-- The commands of the block. -/
inductive Instr where
  /-- RD_SHARED (R188). -/
  | rdShared (h : ReqHdr)
  /-- RD_OWN (R188). -/
  | rdOwn (h : ReqHdr)
  /-- RD_ONCE (R188). -/
  | rdOnce (h : ReqHdr)
  /-- RD_NT (R188). -/
  | rdNt (h : ReqHdr)
  /-- RSV_LD (R249). -/
  | rsvLd (h : ReqHdr)
  /-- WR_LINE (R143). -/
  | wrLine (h : ReqHdr) (data : Data)
  /-- WR_PART (R143). -/
  | wrPart (h : ReqHdr) (mask : Mask) (data : Data)
  /-- WR_NT (R293). -/
  | wrNt (h : ReqHdr) (mask : Mask) (data : Data)
  /-- CND_ST (R254). -/
  | cndSt (h : ReqHdr) (mask : Mask) (data : Data)
  /-- EVICT_CLEAN (R193). -/
  | evictClean (h : ReqHdr)
  /-- EVICT_DIRTY (R193). -/
  | evictDirty (h : ReqHdr) (data : Data)
  /-- ATOM (R227). -/
  | atom (h : ReqHdr) (slot0 slot1 : BitVec 128)
  /-- FLUSH_LINE (R191). -/
  | flushLine (h : ReqHdr)
  /-- INVAL_LINE (R188). -/
  | invalLine (h : ReqHdr)
  /-- BARRIER_C (R274). -/
  | barrierC (h : ReqHdr)
  /-- CFG_RD (R392). -/
  | cfgRd (h : ReqHdr)
  /-- CFG_WR (R391). -/
  | cfgWr (h : ReqHdr)
  /-- SNP_RSP_I (R194). -/
  | snpRspI (r : SnpRsp)
  /-- SNP_RSP_S (R194). -/
  | snpRspS (r : SnpRsp)
  /-- SNP_RSP_I_D (R183). -/
  | snpRspID (r : SnpRsp) (data : Data)
  /-- SNP_RSP_S_D (R183). -/
  | snpRspSD (r : SnpRsp) (data : Data)
  /-- SNP_RSP_EVP (R185). -/
  | snpRspEvp (r : SnpRsp)
  /-- GRANT_ACK (R197). -/
  | grantAck (p : HPort) (tag : Tag)
  /-- PEER_BEACON_RX (R401). -/
  | peerBeaconRx (p : HPort) (b : Beacon)
  /-- MEM_DATA_RX (R280). -/
  | memDataRx (m : MPort) (tag : Tag) (dcount : BitVec 4) (poison : Bool) (data : Data)
  /-- MEM_CMP_RX (R281). -/
  | memCmpRx (m : MPort) (tag : Tag)
  /-- MEM_ERR_RX (R417). -/
  | memErrRx (m : MPort) (tag : Tag) (code : BitVec 8)
  /-- PAYLOAD_FLIT_RX (R330). -/
  | payloadFlitRx (l : Lnk) (flit : BitVec 576) (unc : Bool)
  /-- IDLE_FLIT_RX (R345). -/
  | idleFlitRx (l : Lnk) (flit : BitVec 576) (unc : Bool)
  /-- NAK_RX (R337). -/
  | nakRx (l : Lnk) (flit : BitVec 576) (unc : Bool)
  /-- RETRAIN_REQ_RX (R352). -/
  | retrainReqRx (l : Lnk) (flit : BitVec 576) (unc : Bool)
  /-- INIT_FLIT_RX (R346). -/
  | initFlitRx (l : Lnk) (flit : BitVec 576) (unc : Bool)
  /-- NAK_RESEND_TIMER (R331). -/
  | nakResendTimer (l : Lnk)
  /-- ACK_TIMER_EXPIRY (R338). -/
  | ackTimerExpiry (l : Lnk)
  /-- REPLAY_NO_PROGRESS (R339). -/
  | replayNoProgress (l : Lnk)
  /-- NO_FLIT_TIMEOUT (R341). -/
  | noFlitTimeout (l : Lnk)
  /-- CRC_WINDOW (R357). -/
  | crcWindow (l : Lnk)
  /-- LOSS_OF_SIGNAL (R352). -/
  | lossOfSignal (l : Lnk) (lane : Fin 24)
  /-- LANE_LOCK_TIMEOUT (R353). -/
  | laneLockTimeout (l : Lnk) (lane : Fin 24)
  /-- RETRAIN_ATTEMPT_TIMEOUT (R354). -/
  | retrainAttemptTimeout (l : Lnk)
  /-- RETRAIN_RESYNC (R353). -/
  | retrainResync (l : Lnk) (flit : BitVec 576) (unc : Bool)
  /-- RETRAIN_COUNT_RESET (R355). -/
  | retrainCountReset (l : Lnk)
  /-- DOWN_TO_DETECT (R348). -/
  | downToDetect (l : Lnk)
  /-- PARTNER_DETECTED (R348). -/
  | partnerDetected (l : Lnk) (groups : BitVec 3)
  /-- TRAIN_EQ_DONE (R349). -/
  | trainEqDone (l : Lnk) (failedRx : BitVec 24) (partner : TrainReport)
  /-- TRAIN_EQ_TIMEOUT (R348). -/
  | trainEqTimeout (l : Lnk)
  /-- ALIGN_DONE (R350). -/
  | alignDone (l : Lnk) (partner : AlignReport)
  /-- ALIGN_TIMEOUT (R348). -/
  | alignTimeout (l : Lnk)
  /-- INIT_TIMEOUT (R348). -/
  | initTimeout (l : Lnk)
  /-- PORT_EVENT (R214). -/
  | portEvent (p : HPort)
  /-- PORT_RESET (R902). -/
  | portReset (l : Lnk)
  /-- SNOOP_TIMEOUT (R209). -/
  | snoopTimeout (p : HPort) (tag : Tag)
  /-- BCAST_SNOOP_TIMEOUT (R210). -/
  | bcastSnoopTimeout (p : HPort) (tag : Tag)
  /-- EVP_WAIT_TIMEOUT (R185). -/
  | evpWaitTimeout (p : HPort) (tag : Tag)
  /-- GRANT_ROLLBACK (R198). -/
  | grantRollback (p : HPort) (tag : Tag)
  /-- BACK_INVAL_FREE (R206). -/
  | backInvalFree (x : Fin 16)
  /-- RECOVERY_WINDOW_EXPIRY (R215). -/
  | recoveryWindowExpiry (p : HPort)
  /-- RECOVERY_INTERVAL_END (R217). -/
  | recoveryIntervalEnd (p : HPort)
  /-- ATTR_SPAN_FILL (R156). -/
  | attrSpanFill (x : Fin 16) (folio : Folio)
  /-- ATTR_SPAN_EXPIRY (R160). -/
  | attrSpanExpiry (x : Fin 16) (folio : Folio)
  /-- DA_READ_DONE (R465). -/
  | daReadDone (line : Line) (err0 err1 : BitVec 40)
  /-- DA_WRITE_DONE (R54). -/
  | daWriteDone (line : Line)
  /-- GALLEY_ENTRY_FREE (R288). -/
  | galleyEntryFree (line : Line)
  /-- FILL_STAGING_RELEASE (R49). -/
  | fillStagingRelease (x : Fin 16)
  /-- RSV_SLOT_EXPIRY (R253). -/
  | rsvSlotExpiry (x : Fin 16) (slot : Fin 8)
  /-- STARVE_HEAD_TIMEOUT (R259). -/
  | starveHeadTimeout (x : Fin 16)
  /-- RSV_GUARD_EXPIRY (R260). -/
  | rsvGuardExpiry (x : Fin 16)
  /-- STICK_OPEN_REPLY (R298). -/
  | stickOpenReply (p : HPort) (line : Line)
  /-- STICK_FLUSH_DEMAND (R296). -/
  | stickFlushDemand (p : HPort) (line : Line)
  /-- STICK_TIMEOUT (R299). -/
  | stickTimeout (p : HPort) (line : Line)
  /-- END_POINT_NOTICE (R273). -/
  | endPointNotice (p : HPort) (agent : Agent) (epoch : Nat)
  /-- MEM_TIMEOUT (R413). -/
  | memTimeout (m : MPort) (tag : Tag)
  /-- MEMPORT_DOWN (R414). -/
  | memportDown (m : MPort)
  /-- ISLAND_STOP (R77). -/
  | islandStop (i : Fin 32)
  /-- ISLAND_WAKE (R78). -/
  | islandWake (i : Fin 32) (cause : WakeCause)
  /-- WAKE_READY_TIMEOUT (R103). -/
  | wakeReadyTimeout (i : Fin 32)
  /-- CLOCK_CHECK_WINDOW (R100). -/
  | clockCheckWindow (found : ClockWindow)
  /-- PLL_LOCK_TIMEOUT (R106). -/
  | pllLockTimeout (unlocked : BitVec 32)
  /-- XTAL_LOST (R109). -/
  | xtalLost
  /-- MIRROR_CAPTURE (R92). -/
  | mirrorCapture
  /-- ACCESS_ABANDON (R91). -/
  | accessAbandon (path : Path) (island : Fin 32) (addr : Word) (write : Bool)
  /-- REFRESH_DUE (R458). -/
  | refreshDue (d : Fin 8)
  /-- MR4_POLL (R458). -/
  | mr4Poll (d : Fin 8) (doubled : Bool)
  /-- DQS_TRACKING (R456). -/
  | dqsTracking (d : Fin 8)
  /-- DA_TRAINING (R454). -/
  | daTraining (d : Fin 8) (r : TrainResult)
  /-- PIN_DIAGNOSIS (R758). -/
  | pinDiagnosis (d : Fin 8) (mismatch : List (BitVec 40))
  /-- PAIR_HELLO_RX (R510). -/
  | pairHelloRx (h : Hello)
  /-- PAIR_REFUSE_RX (R511). -/
  | pairRefuseRx (reason : BitVec 4)
  /-- SHED_PHASE2 (R513). -/
  | shedPhase2
  /-- SHED_DONE_RX (R514). -/
  | shedDoneRx (ctlSeq : Tag)
  /-- PAIR_COMMIT_RX (R515). -/
  | pairCommitRx (ctlSeq : Tag)
  /-- PAIR_ATTEMPT_LIMIT (R516). -/
  | pairAttemptLimit
  /-- RELEASE_HALF_RX (R551). -/
  | releaseHalfRx (ctlSeq : Tag)
  /-- RELEASE_ACK_RX (R552). -/
  | releaseAckRx (ctlSeq : Tag)
  /-- MIR_WRITE_RX (R524). -/
  | mirWriteRx (mtag : Tag) (poison : Bool) (mem : MPort) (full : Bool) (line : Line) (mask : Mask) (data : Data)
  /-- MIR_RELEASE_RX (R527). -/
  | mirReleaseRx (line : Line)
  /-- MIR_FETCH_RX (R531). -/
  | mirFetchRx (mtag : Tag) (line : Line)
  /-- MIR_ACK_RX (R60). -/
  | mirAckRx (mtag : Tag)
  /-- MIR_NAK_RX (R525). -/
  | mirNakRx (mtag : Tag) (reason : BitVec 2)
  /-- MIR_NAK_BUSY_RETRY (R525). -/
  | mirNakBusyRetry (line : Line)
  /-- MIR_DATA_RX (R531). -/
  | mirDataRx (mtag : Tag) (poison : Bool) (data : Data)
  /-- MIR_LOST_RX (R742). -/
  | mirLostRx (mtag : Tag) (line : Line)
  /-- BEACON_SEND (R398). -/
  | beaconSend
  /-- CKL_LOST (R532). -/
  | cklLost
  /-- BEACON_LOST (R533). -/
  | beaconLost
  /-- SUSPECT_EVAL (R534). -/
  | suspectEval
  /-- ISOLATED_PORT_ACTIVE (R546). -/
  | isolatedPortActive (p : HPort)
  /-- DRAIN_DONE_OWN (R542). -/
  | drainDoneOwn
  /-- INFO_GET (R622). -/
  | infoGet (d : Desc)
  /-- COLOPHON_GET (R622). -/
  | colophonGet (d : Desc)
  /-- FW_VERSION (R622). -/
  | fwVersion (d : Desc)
  /-- MODE_SET (R625). -/
  | modeSet (d : Desc)
  /-- MODE_CLEAR (R625). -/
  | modeClear (d : Desc)
  /-- MODE_QUERY (R630). -/
  | modeQuery (d : Desc)
  /-- MODE_SETTLED (R691). -/
  | modeSettled (n : Fin 12)
  /-- RAT_WRITE (R631). -/
  | ratWrite (d : Desc)
  /-- RAT_READ (R633). -/
  | ratRead (d : Desc)
  /-- RAT_SYNC (R634). -/
  | ratSync (d : Desc)
  /-- RAT_SYNC_TIMEOUT (R164). -/
  | ratSyncTimeout (id : Nat)
  /-- FLUSH_RANGE (R637). -/
  | flushRange (d : Desc)
  /-- INVAL_RANGE (R639). -/
  | invalRange (d : Desc)
  /-- DRAIN_START (R641). -/
  | drainStart (d : Desc)
  /-- DRAIN_STATUS (R635). -/
  | drainStatus (d : Desc)
  /-- RANGE_CMD_COMPLETE (R638). -/
  | rangeCmdComplete (id : Nat)
  /-- RANGE_CMD_LIMIT (R638). -/
  | rangeCmdLimit (id : Nat)
  /-- LINK_STATUS (R643). -/
  | linkStatus (d : Desc)
  /-- LINK_RETRAIN (R645). -/
  | linkRetrain (d : Desc)
  /-- LINK_RETRAIN_FULL (R646). -/
  | linkRetrainFull (d : Desc)
  /-- FULL_RETRAIN_HOLD_END (R646). -/
  | fullRetrainHoldEnd (l : Lnk)
  /-- LINK_CMD_TIMEOUT (R646). -/
  | linkCmdTimeout (l : Lnk)
  /-- LINK_WIDTH (R648). -/
  | linkWidth (d : Desc)
  /-- LINK_ERR_POLICY (R649). -/
  | linkErrPolicy (d : Desc)
  /-- PAIR_START (R509). -/
  | pairStart (d : Desc)
  /-- PAIR_STATUS (R650). -/
  | pairStatus (d : Desc)
  /-- PAIR_RELEASE (R550). -/
  | pairRelease (d : Desc)
  /-- ADOPT_REBUILT (R653). -/
  | adoptRebuilt (d : Desc)
  /-- ADOPT_FORCE (R654). -/
  | adoptForce (d : Desc)
  /-- MIRROR_POLICY (R556). -/
  | mirrorPolicy (d : Desc)
  /-- INK_GRANT (R656). -/
  | inkGrant (d : Desc)
  /-- INK_FLOOR (R656). -/
  | inkFloor (d : Desc)
  /-- INK_REPORT (R655). -/
  | inkReport (d : Desc)
  /-- INK_PLAN_QUERY (R655). -/
  | inkPlanQuery (d : Desc)
  /-- PATROL_CFG (R658). -/
  | patrolCfg (d : Desc)
  /-- PROOF_RUN (R659). -/
  | proofRun (d : Desc)
  /-- PROOF_STATUS (R661). -/
  | proofStatus (d : Desc)
  /-- PROOF_ABORT (R661). -/
  | proofAbort (d : Desc)
  /-- PROOF_RUN_END (R660). -/
  | proofRunEnd (runId : BitVec 16)
  /-- PROOF_RUN_LIMIT (R660). -/
  | proofRunLimit (runId : BitVec 16)
  /-- PERF_CFG (R663). -/
  | perfCfg (d : Desc)
  /-- PERF_SNAP (R664). -/
  | perfSnap (d : Desc)
  /-- SAMPLE_CFG (R666). -/
  | sampleCfg (d : Desc)
  /-- PERF_USER_GRANT (R666). -/
  | perfUserGrant (d : Desc)
  /-- LOG_READ (R669). -/
  | logRead (d : Desc)
  /-- LOG_CLEAR (R670). -/
  | logClear (d : Desc)
  /-- LOG_POLICY (R768). -/
  | logPolicy (d : Desc)
  /-- FW_STAGE (R594). -/
  | fwStage (d : Desc)
  /-- FW_COMMIT_TRIAL (R595). -/
  | fwCommitTrial (d : Desc)
  /-- FW_VERIFY_DONE (R595). -/
  | fwVerifyDone (cause : BitVec 4)
  /-- FW_COMMIT_FINAL (R596). -/
  | fwCommitFinal (d : Desc)
  /-- FW_RESTART (R597). -/
  | fwRestart (d : Desc)
  /-- FW_ROLLBACK (R598). -/
  | fwRollback (d : Desc)
  /-- APP_CFG (R675). -/
  | appCfg (d : Desc)
  /-- APP_RESET (R676). -/
  | appReset (d : Desc)
  /-- PORT_RECOVER (R678). -/
  | portRecover (d : Desc)
  /-- PORT_FENCE_LINK (R435). -/
  | portFenceLink (d : Desc)
  /-- PORT_FENCE_AGENT (R679). -/
  | portFenceAgent (d : Desc)
  /-- PORT_UNFENCE_LINK (R440). -/
  | portUnfenceLink (d : Desc)
  /-- PORT_UNFENCE_AGENT (R680). -/
  | portUnfenceAgent (d : Desc)
  /-- AGENT_MAP (R681). -/
  | agentMap (d : Desc)
  /-- FRISKET_ARM (R682). -/
  | frisketArm (d : Desc)
  /-- PINMARK_SET (R684). -/
  | pinmarkSet (d : Desc)
  /-- PINMARK_CLEAR (R684). -/
  | pinmarkClear (d : Desc)
  /-- WATCHDOG_EXPIRY (R601). -/
  | watchdogExpiry
  /-- FIRMWARE_FAULT (R600). -/
  | firmwareFault
  /-- JPC_RESTART (R600). -/
  | jpcRestart (cause : BitVec 3)
  /-- BOOT_ROM (R592). -/
  | bootRom (b : BootFacts)
  /-- QUOIN_HOLD_LIMIT (R844). -/
  | quoinHoldLimit (q : Fin 64)
  /-- EPOCH_BOUNDARY (R712). -/
  | epochBoundary (e : EpochFacts)
  /-- PLAN_EPOCH (R717). -/
  | planEpoch (d : PlanDemand)
  /-- PLAN_MISSING (R719). -/
  | planMissing
  /-- INK_SAMPLE (R705). -/
  | inkSample (rails : List Nat) (est : Nat) (estTask : List Nat)
  /-- INK_SENSOR_FAULT (R709). -/
  | inkSensorFault (rail : Fin 7)
  /-- CEIL_BUCKET_REFILL (R725). -/
  | ceilBucketRefill (staticEnergy : Nat)
  /-- CEIL_UNMET (R729). -/
  | ceilUnmet (powerQw : Nat)
  /-- ISLAND_POLICY_CHECK (R722). -/
  | islandPolicyCheck (f : PolicyFacts)
  /-- THERMAL_SAMPLE (R731). -/
  | thermalSample (temp : BitVec 8)
  /-- THROTTLE_STEP (R732). -/
  | throttleStep
  /-- THERMAL_TRIP (R733). -/
  | thermalTrip (temp : BitVec 8)
  /-- PROOF_STEP (R737). -/
  | proofStep (runId : BitVec 16) (r : StepFacts)
  /-- EVAC_COMPLETE (R743). -/
  | evacComplete (x : Fin 16) (block : Nat)
  /-- PATROL_CHUNK (R754). -/
  | patrolChunk (target : Bool) (reads : List PatrolRead)
  /-- PATROL_LATE (R753). -/
  | patrolLate (target : Bool)
  /-- COLD_RESET (R879). -/
  | coldReset
  /-- WARM_RESET (R896). -/
  | warmReset
  /-- WARM_RESPONSE_WAIT (R896). -/
  | warmResponseWait
  /-- WARM_DRAIN_END (R898). -/
  | warmDrainEnd
  /-- BRINGUP_PHASE_END (R888). -/
  | bringupPhaseEnd
  /-- LINK_PHASE_TIMEOUT (R889). -/
  | linkPhaseTimeout
  /-- SMBUS_REG_READ (R813). -/
  | smbusRegRead (addr : Word) (count : Nat)
  /-- SMBUS_REG_WRITE (R814). -/
  | smbusRegWrite (addr data : Word) (count : Nat) (pecOk : Bool)
  /-- SMBUS_LAST_STATUS (R812). -/
  | smbusLastStatus
  /-- SMBUS_TIMEOUT (R815). -/
  | smbusTimeout
  /-- JTAG_REG_ACCESS (R817). -/
  | jtagRegAccess (dr : BitVec 66)
  /-- TAP_RESET (R846). -/
  | tapReset
  /-- JTAG_EXTEST (R936). -/
  | jtagExtest
  /-- JTAG_HIGHZ (R936). -/
  | jtagHighz
  /-- JTAG_CLAMP (R936). -/
  | jtagClamp
  /-- QUO_READ (R841). -/
  | quoRead (a : Acc) (q : Fin 64)
  /-- QUO_WRITE (R843). -/
  | quoWrite (a : Acc) (q : Fin 64) (value : Word)
  /-- QUO_BREAK (R846). -/
  | quoBreak (a : Acc) (value : Word)
  /-- MBX_DOORBELL (R565). -/
  | mbxDoorbell (a : Acc) (ring : Fin 40) (value : Word)
  /-- JPC_WDOG_WRITE (R601). -/
  | jpcWdogWrite (value : Word)
  /-- JPC_CTL_RESTART (R600). -/
  | jpcCtlRestart (a : Acc)
  /-- JPC_CTL_HALT (R605). -/
  | jpcCtlHalt (a : Acc)
  /-- PRF_SNAP_START (R786). -/
  | prfSnapStart (a : Acc)
  /-- PRF_WALK_DONE (R789). -/
  | prfWalkDone (ticks : List Nat)
  /-- PMC_LO_READ (R782). -/
  | pmcLoRead (a : Acc) (c : CtrId)
  /-- PMC_HI_READ (R782). -/
  | pmcHiRead (a : Acc) (c : CtrId)
  /-- PMC_LO_WRITE (R783). -/
  | pmcLoWrite (a : Acc) (c : CtrId) (value : Word)
  /-- RC_REGISTER_READ (R96). -/
  | rcRegisterRead (a : Acc) (addr : Word)
  /-- ERR_ALERT_READ (R773). -/
  | errAlertRead (a : Acc)
  /-- SELECTOR_DATA0_READ (R864). -/
  | selectorData0Read (a : Acc) (sel : Sel)
  /-- SELECTOR_WRITE (R864). -/
  | selectorWrite (a : Acc) (sel : Sel) (value : Word)
  /-- IMPOSE_RESULT_READ (R870). -/
  | imposeResultRead (a : Acc) (aux : Bool)
  /-- HIST_SHIFT_WRITE (R869). -/
  | histShiftWrite (a : Acc) (value : Word)
  /-- LINK_CFG_THRESHOLD_WRITE (R360). -/
  | linkCfgThresholdWrite (a : Acc) (l : Lnk) (value : Word)
  /-- LINK_CFG_HOLD_DOWN_WRITE (R362). -/
  | linkCfgHoldDownWrite (a : Acc) (l : Lnk) (value : Word)
  /-- DAC_TIMING_WRITE (R876). -/
  | dacTimingWrite (a : Acc) (d : Fin 8) (k : Fin 4) (value : Word)
  /-- APP_POLICY_WRITE (R229). -/
  | appPolicyWrite (a : Acc) (value : Word)
  /-- MEMPORT_EQUIV_WRITE (R862). -/
  | memportEquivWrite (a : Acc) (value : Word)
  /-- BIT_ALIAS_WRITE (R828). -/
  | bitAliasWrite (a : Acc) (addr value : Word)
  /-- MIRROR_WINDOW_READ (R820). -/
  | mirrorWindowRead (a : Acc) (addr : Word)
  /-- RING_WINDOW_ACCESS (R570). -/
  | ringWindowAccess (a : Acc) (addr : Word) (write : Bool) (value : Word)
  /-- REG_WRITE (R824). -/
  | regWrite (a : Acc) (addr value : Word)
  /-- GROUP_ALIGNMENT_LOST (R322). -/
  | groupAlignmentLost (l : Lnk) (g : Fin 3)
  /-- COLD_RST_N_RISE (R886). -/
  | coldRstNRise (pairSide : Bool) (smb : BitVec 3) (testEn : Bool)
  /-- TEST_EN_CHANGE (R919). -/
  | testEnChange (level : Bool)
  /-- VDD_AON_LOSS (R887). -/
  | vddAonLoss
  /-- ISOLATED_NO_BEACON (R546). -/
  | isolatedNoBeacon
  /-- DRAIN_TASK_CHUNK (R714). -/
  | drainTaskChunk (lines : List Line)
  /-- MIRROR_CATCHUP_CHUNK (R528). -/
  | mirrorCatchupChunk (x : Fin 16) (lines : List Line)
  /-- WRITEBACK_SMOOTHING_CHUNK (R715). -/
  | writebackSmoothingChunk (x : Fin 16) (lines : List Line)
  /-- SWEEP_PROGRESS (R214). -/
  | sweepProgress (x : Fin 16) (kind : SweepKind)
  deriving DecidableEq, Repr

end Sys2Proof
end

