-- ==== Sys2Proof/Decode.lean ====
section
/-!
DEFINITION. Decoding by the bits of the command table: no row of the table has bits, so no word spells a command.
-/

namespace Sys2Proof

/-- The command that a word spells by the table's bits. -/
def decodeTableWord (_nbits _w : Nat) : Option Instr := none

end Sys2Proof
end

