-- ==== Sys2Proof/Config.lean ====
section
/-!
DEFINITION. What the specification leaves open, as constants without a body.
Each is applied to a counter of the state (or to the operands), so that nothing can be proved of its value.
-/

namespace Sys2Proof.Config

/-- Which of the outcomes the specification allows an open decode takes (R463, R470, R948): log entry 20. -/
opaque decodeChoice : Nat → Nat
/-- The data of a codeword that is read although it holds no valid codeword, or is read uncorrectable (R948, R468): log entry 20. -/
opaque undecoded : Nat → BitVec 512
/-- Boot-ROM version and fused words that the colophon holds (Table 19.2): log entry 5. -/
opaque freeWord : Nat → Word
/-- The energy, in units of 0.001 ink, of one issue of each kind (R706, R725): the coefficients are not published. Log entry 31. -/
opaque issueEnergy : Nat → Nat
/-- The ink class of a sampled request (R804): it follows the same coefficients. Log entry 31. -/
opaque inkClass : Nat → BitVec 3
/-- The latency field of a sample, in XBR cycles (R801, R802): timing below the AON tick. Log entry 32. -/
opaque latency : Nat → Word
/-- The result of a three-bit or wider flip of one SEC-DED word (R947): 0 passed, 1 corrected to a wrong value, 2 uncorrectable. Log entry 21. -/
opaque secdedChoice : Nat → Nat
/-- The LFSR of a port one advance later (R796): the polynomial does not fix the form of the register. Log entry 33. -/
opaque lfsrNext : Word → Word

/-- Occurrences of an event that no command of the block reports (Tables 17.4 and 17.5). Log entry 34. -/
opaque activity : Nat → Nat
/-- What a link's analogue side has measured or counted: codewords corrected or not, taps, signal-to-noise ratio (R363, R871).
Log entry 35. -/
opaque lane : Nat → Word

end Sys2Proof.Config
end

