-- ==== Sys2Proof/Machine/State.lean ====
section
/-!
DEFINITION. The state of the block: everything the specification gives the device, as plain data, the reasons a step can
stop, and the state after reset.  What the specification leaves open at reset is named in notes/assumptions (entries 1 to 9).
-/

namespace Sys2Proof.Machine

open Sys2Proof

/-- The faults of the block.  The specification gives every command an effect, so no command raises one; the only
constructor stands for the place of a fault in the interface and nothing raises it (safe). -/
inductive Fault where
  /-- Raised by nothing (safe). -/
  | none
  deriving DecidableEq, Repr

/-- The refusals of the block. -/
inductive Refusal where
  /-- A command whose meaning is not written yet; raised by an arm of `exec` only (safe). -/
  | notModelled (mnemonic : String)
  /-- Raised by every command but COLD_RESET and the strap and supply rows while the device is in manufacturing test:
  R919 puts its behaviour outside the manual until a cold reset with TEST_EN sampled low (safe). -/
  | manufacturingTest
  deriving DecidableEq, Repr

/-! ### Fuses and programmed settings -/

/-- The ordering parts of Table 0.1. -/
inductive Variant where
  | px2932 | sx2932 | px2916 | sb2916
  deriving DecidableEq, Repr

/-- What the fuses hold (R8, Table 19.2, R623, R873). -/
structure Fuses where
  variant : Variant
  industrial : Bool
  stepping : BitVec 8
  serialLow : BitVec 104
  sigRequired : Bool
  powerFuse : BitVec 10
  romVersion : Word
  keyHash : BitVec 384
  linkLimit : Word
  txeqDefault : Word
  deriving DecidableEq, Repr

/-- One entry of the Region Attribute Table (Table 3.8). -/
structure RatEntry where
  word0 : BitVec 64
  word1 : BitVec 64
  deriving DecidableEq, Repr

/-- Settings whose every value the specification bounds: the RAT (R149), GLB_APP_POLICY (R228), the grant and the floor (R710),
the sampling and patrol settings (R806, R658) and the policy of the log (R768). -/
structure Cfg where
  rat : Tab RatEntry
  ratWrites : Word
  appPolicy : BitVec 6
  grant : BitVec 18
  floor : BitVec 18
  grantNext : BitVec 18
  floorNext : BitVec 18
  smpExp : BitVec 5
  smpMask : BitVec 2
  smpDither : Bool
  histShift : BitVec 4
  patrolMinutes : BitVec 32
  patrolTargets : BitVec 2
  patrolDiag : Bool
  logSeverity : BitVec 8
  logClasses : Word
  deriving DecidableEq, Repr

/-! ### Pins, reset and bring-up -/

/-- The sideband pins the device reads or drives (Table 21.6); ALERT_N is computed (R772). -/
structure Pins where
  coldRstN : Bool
  pairSide : Bool
  smbStraps : BitVec 3
  testEn : Bool
  testSampled : Bool
  ready : Bool
  thermtrip : Bool
  jtagHold : Bool
  deriving DecidableEq, Repr

/-- A warm reset in progress (R896): the tick of its recognition, MIRROR at that moment, whether the pre-reset drain runs, and the lines
it has written back. -/
structure Warm where
  start : Nat
  mirror : Bool
  draining : Bool
  written : Nat
  deriving DecidableEq, Repr

/-- Bring-up (R888): phase 0 is reset held, 1 to 7 the phases of Table 20.2, 8 ready; `since` is the tick at which the
phase began, `stopped` that bring-up has stopped (R892), `txStopped` that no port sends flits (Table 2.7), and `relock` that a warm reset
began this bring-up and READY has not risen since (R881, R896). -/
structure Boot where
  phase : Nat
  since : Nat
  stopped : Bool
  warm : Option Warm
  txStopped : Bool
  relock : Bool
  deriving DecidableEq, Repr

/-! ### Caching -/

/-- A tag entry (Table 3.3); `sectors` is word 0. -/
structure TagEntry where
  sectors : BitVec 64
  tag : BitVec 35
  pa12 : Bool
  age : BitVec 3
  mirrorFolio : Bool
  evac : Bool
  poisonAny : Bool
  pinned : Bool
  adopted : Bool
  regionClass : BitVec 3
  memPort : MPort
  deriving DecidableEq, Repr

/-- Directory states (Table 4.2). -/
inductive DirState where
  | I | S | E | M
  deriving DecidableEq, Repr

/-- A directory entry (Table 4.1). -/
structure DirEntry where
  presence : BitVec 64
  lineTag : Line
  st : DirState
  ownerValid : Bool
  grantPending : Bool
  txnOpen : Bool
  recoverHold : Bool
  fillReserved : Bool
  deriving DecidableEq, Repr

/-- The attributes a request looks up (Table 3.8). -/
structure Attrs where
  mapped : Bool
  cls : BitVec 3
  memPort : MPort
  mirrorReq : Bool
  earlyAck : Bool
  partialWb : Bool
  deriving DecidableEq, Repr

/-- A resolved span of a slice's attribute cache (R156, R160); list order is recency, newest first.  `cycles` are the cycles of the slice
since the fill up to the tick `filled`, which is the fill's own or that of the newest change of the slice's divider. -/
structure Span where
  lo : Nat
  hi : Nat
  attrs : Attrs
  filled : Nat
  cycles : Nat
  deriving DecidableEq, Repr

/-- The kinds of work a slice does on a line: host requests, stick flushes, back-invalidation, range commands and sheds. -/
inductive Op where
  | rdShared | rdOwn | rdOnce | rdNt | rsvLd | wrLine | wrPart | wrNt | cndSt | evictClean | evictDirty
  | atom | flushLine | invalLine | barrier | cfgRd | cfgWr | stickFlush | backInval | recallFlush | recallInval
  deriving DecidableEq, Repr

/-- A request as the device holds it.  `mask` and `data` are its bytes; for an ATOM they hold the two operand slots.  A `silent` request
is answered nothing (R410); `answers` are the WR_NTs of a stick flush and `attrs` the attributes that its stick keeps (R295).  A request
that counts in its epoch is `counted` (R273), and an `opened` stick flush stands for a stick that is still composing: it holds the place
of its flush among the requests for the line (R301). -/
structure Req where
  op : Op
  port : HPort
  tag : Tag
  agent : Agent
  line : Line
  opf : BitVec 51
  poison : Bool
  mask : Mask
  data : Data
  priv : Bool
  epoch : Nat
  arrived : Nat
  contrib : BitVec 32
  answers : List (Tag × Agent × Nat × Bool)
  cmd : Nat
  silent : Bool
  attrs : Option Attrs
  counted : Bool
  opened : Bool
  deriving DecidableEq, Repr

/-- The snoops (Table 8.1). -/
inductive SnpKind where
  | share | inv | fetchInv
  deriving DecidableEq, Repr

/-- A snoop outstanding to an agent, or by broadcast to a port (R179); `held` marks an answer supplied by a port event (Table 4.7),
`sent` is the tick at which its last bit left, none while it waits for credits; `evp` the agent whose eviction is awaited, and `evicted` the agents whose evictions have arrived (R193). -/
structure Snp where
  port : HPort
  tag : Tag
  agent : Agent
  bcast : Bool
  kind : SnpKind
  owner : Bool
  sent : Option Nat
  evp : Option Agent
  several : Bool
  held : Bool
  evicted : List Agent
  deriving DecidableEq, Repr

/-- The grants (Table 8.1). -/
inductive GrantKind where
  | s | e | m
  deriving DecidableEq, Repr

/-- Where a transaction stands; `ready` holds the whole line of a far ATOM that waits for a galley entry (R288), `tracker` is a wait for
a back-invalidation tracker (R206), and `held` that of a request whose line a recovery window took while its attributes were looked up
(R219). -/
inductive Phase where
  | attr | held | way | tracker | snoop | classWb | daRead | memRead | mirFetch | galley | ready | granted | rollback | memAck
  deriving DecidableEq, Repr

/-- What the array read of a tag hit has answered before its transaction needs it (R43): the data, its poison, whether a half was
UNCORRECTABLE, and the sector's state when the read was queued. -/
structure ArrGot where
  data : Data
  poison : Bool
  ue : Bool
  sector : Nat
  deriving DecidableEq, Repr

/-- An open transaction: one miss-tracking entry (R192, R195).  `way` is the way of its directory entry and `tagWay` the tag way it
holds for a fill, 16 for none; `modes` are the modes it saw at its lookup (R148) and `gen` the number of mode changes before it.  `cndOk` says that a CND_ST
held its slot when its transaction started (R254); `hit` says that its lookup found the
folio and `aged` that it has set the folio's age (R130); `noWay` that choose_way has answered NONE (R133); `ownerPoison` is the poison of
`ownerData`; `arrWait` and `arrGot` are the array read that its lookup started (R43) and what it answered. -/
structure Txn where
  req : Req
  phase : Phase
  attrs : Attrs
  snoops : List Snp
  bcast : Bool
  exact : Bool
  marks : BitVec 64
  ownerData : Option Data
  poisoned : Bool
  pre : DirEntry
  grant : GrantKind
  sent : Option Nat
  far : Bool
  dropped : Bool
  way : Nat
  tagWay : Nat
  modes : BitVec 12
  cndOk : Bool
  snooped : Bool
  gen : Nat
  hit : Bool
  aged : Bool
  noWay : Bool
  ownerPoison : Bool
  arrWait : Bool
  arrGot : Option ArrGot
  deriving DecidableEq, Repr

/-- The galley entry kinds (Table 6.4). -/
inductive GKind where
  | retain | through | victim | mirrorIn
  deriving DecidableEq, Repr

/-- A request that waits on a galley entry: whom to answer, and whether CMP_EARLY has already been sent.
`old` is the DATA of a far ATOM (R244); `ok` the outcome of a CND_ST.  `stage` is 0 while the write it waits on is not issued,
1 while that write is in flight and 2 after it; `mem` says that the write is the memory write, not the array write (R54, R56); `mtag` is
the MIR_WRITE whose answer it awaits (R60). -/
structure Waiter where
  port : HPort
  tag : Tag
  agent : Agent
  epoch : Nat
  early : Bool
  answer : Bool
  old : Option (BitVec 128)
  poison : Bool
  ok : Bool
  cmd : Nat
  stage : Nat
  mtag : Option Tag
  gen : Nat
  mem : Bool
  deriving DecidableEq, Repr

/-- A codeword of the data array: its 64 bytes, the poison vector added or not (R467), and the pins that read in error. -/
structure Codeword where
  written : Bool
  data : BitVec 512
  poison : Bool
  err : BitVec 40
  deriving DecidableEq, Repr

/-- A galley entry (R284), entry `slot` of its slice.  `loading` while the line is still being read from the data array;
`daAgain` and `memAgain` ask for a further write (R287); `vers` is the mtag of the newest MIR_WRITE (R522) while `mirWait`; `clean` makes the sector Clean at the memory acknowledgement and `refill` is the way to which a line served under R141 is written then, 16 for none;
`nextKind` is the kind that it takes once its outstanding write is complete (R286); `known` are the bytes of `data` that are the line's
newest, `rmw` that the others are being read for a masked write (R482), and `way` the way that a victim left, 16 for none; `base` is the sector's state when the entry was taken; `mirFirst` holds
the memory write until the MIR_ACK (R523); `acks` are the messages that a MIRROR_IN entry is to answer, each with the stage of its
array write as for a waiter. -/
structure GEntry where
  line : Line
  slot : Nat
  kind : GKind
  data : Data
  mask : Mask
  poison : Bool
  memPort : MPort
  loading : Bool
  daBusy : Bool
  daAgain : Bool
  memBusy : Bool
  memAgain : Bool
  memHeld : Bool
  mirWait : Bool
  mirFirst : Bool
  vers : Option Tag
  waiters : List Waiter
  acks : List (Tag × Nat)
  clean : Bool
  refill : Nat
  base : Nat
  nextKind : Option GKind
  known : Mask
  rmw : Bool
  way : Nat
  deriving DecidableEq, Repr

/-- A reservation slot (R251). -/
structure RsvSlot where
  agent : Agent
  line : Line
  armed : Bool
  tick : Nat
  guarded : Bool
  sent : Option Nat
  deriving DecidableEq, Repr

/-- An entry of a slice's stick table (R295); `demanded` says that a request of the other port asks for its flush (Table 6.6). -/
structure SliceStick where
  port : HPort
  line : Line
  demanded : Bool
  deriving DecidableEq, Repr

/-- Fill data in fill staging (R52): the line, the way to which its array write goes, the data and its poison. -/
structure Fill where
  line : Line
  way : Nat
  data : Data
  poison : Bool
  deriving DecidableEq, Repr

/-- What a read of the data array under way is for: an open transaction, nothing any more (R44), a galley entry that is loading, the
rest of a masked write's codewords (R482), a whole-line resend to the twin (R525, R528), or a MIR_FETCH of the twin (R531). -/
inductive DaUse where
  | txn | discard | load | rmw | resend | fetch (mtag : Tag)
  deriving DecidableEq, Repr

/-- One queued data-array read, with the way, the sector's state and the codewords it found when it was queued (R48). -/
structure DaRead where
  line : Line
  use : DaUse
  way : Nat
  sector : Nat
  lo : Codeword
  hi : Codeword
  deriving DecidableEq, Repr

/-- A word of a slice array that a frisket has corrupted and that has not been read since (R489): target, slice, word, mask. -/
structure BadWord where
  target : Nat
  slice : Nat
  word : Nat
  mask : BitVec 72
  deriving DecidableEq, Repr

/-- Tag store, directory, galleys and the rest of the slices.  Tables are keyed by (slice × 32,768 + set) × 16 + way for tags,
(slice × 8,192 + set) × 16 + way for the directory, and by slice for the rest; flat lists name the line, and R115 gives its slice.  `looked` are the requests, among them the WR_NTs of a stick
whose notice was answered, that have looked up a span and whose final response has not left (R163); `notices` are end-point notices under
way, each with the slice that sent it. -/
structure Coh where
  tags : Tab TagEntry
  dir : Tab DirEntry
  lost : List Nat
  galley : List GEntry
  txns : List Txn
  waiting : List Req
  spans : Tab (List Span)
  rsv : Tab RsvSlot
  starve : Tab (List (Agent × Line × Nat))
  history : Tab (List (Line × Agent))
  predictor : Tab (BitVec 2)
  sliceSticks : List SliceStick
  daReads : List DaRead
  staging : List GEntry
  fills : List Fill
  looked : List (HPort × Tag)
  syncs : List (Nat × List (HPort × Tag))
  galleyFull : List Nat
  sweeps : List (Nat × SweepKind)
  notices : List (Nat × HPort × Agent × Nat)
  bad : List BadWord
  deriving DecidableEq, Repr

/-! ### Ports and links -/

/-- A composing stick (R293). -/
structure Stick where
  line : Line
  mask : Mask
  data : Data
  poison : Bool
  contrib : BitVec 32
  tags : List (Tag × Agent × Nat × Bool)
  replied : Bool
  attrs : Attrs
  tick : Nat
  deriving DecidableEq, Repr

/-- One agent's barrier epochs (R273): the open epoch's number and, for each closed one, the BARRIER_C that waits. -/
structure Epochs where
  opened : Nat
  counts : List (Nat × Nat)
  barriers : List (Nat × Tag)
  hold : List Req
  deriving DecidableEq, Repr

/-- A host port above its link (R376, R404, R215).  Each outstanding tag goes with its agent and the number of mode changes before it;
`interval` is a recovery interval's start, length, lines held at the start and command (R216); `ntWait` are WR_NTs that await the reply for their stick, or a stick (R294, R297), `unreplied` sticks flushed before the reply to their
notice, and `cfgReady` configuration accesses that their agent's hold queue has released (R276). -/
structure PortSt where
  outstanding : List (Tag × Agent × Nat)
  ackAfterEvict : List Tag
  snpTags : List Tag
  snpNext : Tag
  hold : List Req
  sticks : List Stick
  epochs : Tab Epochs
  window : Option Nat
  interval : Option (Nat × Nat × Nat × Nat)
  agentMap : BitVec 32
  rolledBack : List (Agent × Line)
  voided : List Tag
  lastRelease : List (Bool × Nat)
  ntWait : List Req
  unreplied : List (Line × List Tag)
  cfgReady : List Req
  deriving DecidableEq, Repr

/-- What a memory request is for: a fill or forward, the base of a galley entry (Table 10.8), a galley write, a DEVICE request. -/
inductive MemUse where
  | read | load | galley | device
  deriving DecidableEq, Repr

/-- A memory request outstanding, queued or held (R279, R415). -/
structure MemReq where
  tag : Tag
  line : Line
  use : MemUse
  write : Bool
  full : Bool
  mask : Mask
  data : Data
  poison : Bool
  sent : Option Nat
  req : Option Req
  deriving DecidableEq, Repr

/-- A memory port above its link (R279, R414, R419); `downs` names the writes that each past link-down still holds (R419). -/
structure MemSt where
  outstanding : List MemReq
  queue : List MemReq
  held : List MemReq
  next : Tag
  downs : List (List Line)
  deriving DecidableEq, Repr

/-- The common fields of a CTL message (Table 11.3): ctl_seq, the sender's pair state and its PAIR_SIDE strap. -/
structure Ctl where
  seq : Tag
  state : BitVec 4
  side : Bool
  deriving DecidableEq, Repr

/-- The messages the device sends (Tables 8.1 and 11.2), and the control flits it sends of its own accord (Table 7.6). -/
inductive Msg where
  | grant (kind : GrantKind) (tag : Tag)
  | data (tag : Tag) (poison : Bool) (dcount : Nat) (bytes : Data)
  | cmp (tag : Tag) (ok : Bool)
  | cmpEarly (tag : Tag)
  | err (tag : Tag) (code : Nat)
  | snp (kind : SnpKind) (tag : Tag) (agent : Agent) (bcast : Bool) (line : Line)
  | failover (seq : Tag) (adopt : Bool) (side : Bool) (serial : BitVec 128)
  | beacon (b : Beacon)
  | memRd (tag : Tag) (line : Line)
  | memWr (tag : Tag) (line : Line) (full : Bool) (mask : Mask) (bytes : Data) (poison : Bool)
  | pairHello (h : Hello)
  | pairRefuse (c : Ctl) (reason : Nat)
  | shedDone (c : Ctl)
  | pairCommit (c : Ctl)
  | releaseHalf (c : Ctl)
  | releaseAck (c : Ctl)
  | mirWrite (mtag : Tag) (poison : Bool) (mem : MPort) (full : Bool) (line : Line) (mask : Mask) (bytes : Data)
  | mirRelease (line : Line)
  | mirFetch (mtag : Tag) (line : Line)
  | mirAck (mtag : Tag)
  | mirNak (mtag : Tag) (reason : Nat)
  | mirData (mtag : Tag) (poison : Bool) (bytes : Data)
  | mirLost (mtag : Tag) (line : Line)
  | idle | nak (ack : Tag) | retrainReq | init (resync : Bool)
  deriving DecidableEq, Repr

/-- A PAYLOAD flit in the replay buffer (R334): its number, the messages that end in it, the credits that they spent, and its four
slots. -/
structure TxFlit where
  seq : Tag
  msgs : List Msg
  cost : List Nat
  slots : BitVec 512
  deriving DecidableEq, Repr

/-- A flit that the device has sent (R323, Table 7.5): its type, seq, ack and slots; its crd fields are 0 (log entry 60). -/
structure Flit where
  ftype : BitVec 3
  seq : Tag
  ack : Tag
  slots : BitVec 512
  deriving DecidableEq, Repr

/-- The link states (Table 7.12). -/
inductive LState where
  | down | detect | trainEq | align | initCredit | active | retrain
  deriving DecidableEq, Repr

/-- The link layer of one port (chapter 7).  Lists of four are indexed by credit class as crd_class is.  `since` is the tick at which the
state, or the retrain attempt, began and `inactive` the tick at which the link left ACTIVE; `trained` are the groups trained here and `common` those that both ends reported in ALIGN (R350); `winBad` numbers the flits of the window that were not valid (R357); `rxPend` counts the
messages and data slots accepted in flits whose messages the device has not handled yet, and `rxFree` the free receive buffers;
`timerReplay` and `nakReplay` are the ticks of the newest replay that the timer, or a NAK, started (R338).  `aligned` says that this
attempt has seen ALIGN_DONE (step 3 of R353) and `partnerMax` is the maximum width, in groups, that the partner reported there (R350);
`laneMap` is what ALIGN learned of each lane: the logical lane, the group above it, and the polarity at the top (R309).  `taps` are the
transmit taps in use, in the layout of xxx_LANEm_TXEQ, and `atLimit` the taps whose newest request was answered "at limit" (R312); `ran` says that the link has left DOWN since reset.
`cmds` are the link commands that wait for the link. -/
structure LinkSt where
  st : LState
  since : Nat
  inactive : Nat
  groups : BitVec 3
  trained : BitVec 3
  common : BitVec 3
  rxFailed : BitVec 24
  txFailed : BitVec 24
  retrainFails : Nat
  downReason : Nat
  bringupHold : Bool
  nakPending : Bool
  nakTick : Nat
  rxExpected : Tag
  txSeq : Tag
  lastAck : Tag
  replay : List TxFlit
  replayStalls : Nat
  ackTick : Nat
  lastValid : Nat
  payloadRun : Nat
  txRun : Nat
  rxFlits : Nat
  winBad : List Nat
  retrained : Bool
  avail : List Nat
  adv : List Nat
  rxTotals : List Nat
  peerTotals : List Nat
  rxFree : List Nat
  rxPend : List Nat
  rxDataSlots : Nat
  txq : List (List Msg)
  violTicks : List Nat
  fullHold : Bool
  timerReplay : Option Nat
  nakReplay : Option Nat
  aligned : Bool
  partnerMax : Nat
  laneMap : Tab (BitVec 6)
  taps : Tab (BitVec 19)
  atLimit : List (Nat × Nat)
  ran : Bool
  cmds : List Nat
  deriving DecidableEq, Repr

/-! ### Data-array channels -/

/-- The channel states (Table 10.13). -/
inductive DacState where
  | reset | training | active | failed
  deriving DecidableEq, Repr

/-- A frisket (R488). -/
structure Frisket where
  armed : Bool
  matchEn : Bool
  matchAddr : BitVec 26
  mask : BitVec 72
  beats : BitVec 16
  deriving DecidableEq, Repr

/-- A data-array channel (chapter 10).  `rateNext` and `sameBankNext` are what the next refresh applies (R458, R459), `tracked` that a
tracking read has run since the last self-refresh exit (R457), `diag` the codeword of the diagnosis under way, `stoppedAt` the tick at
which its island stopped, and `swept` that the slices have acted on its failure (R494). -/
structure DacSt where
  st : DacState
  marks : BitVec 40
  markCause : Tab (BitVec 3)
  trainFail : BitVec 40
  sref : Bool
  rate2x : Bool
  rateNext : Bool
  sameBank : Bool
  sameBankNext : Bool
  failCause : BitVec 4
  stepDone : BitVec 3
  stepFailed : BitVec 3
  corrections : List (BitVec 26)
  diag : Option (BitVec 26)
  diagEnd : Option Nat
  frisket : Frisket
  tracked : Bool
  stoppedAt : Option Nat
  swept : Bool
  deriving DecidableEq, Repr

/-! ### The twin -/

/-- The pair states (Table 11.4). -/
inductive PairState where
  | unpaired | hello | shed | paired | suspect | split | adopted | isolated | releasing | deposed
  deriving DecidableEq, Repr

/-- A MIR_WRITE or MIR_FETCH that awaits its answer (R504). -/
structure MirOut where
  mtag : Tag
  line : Line
  fetch : Bool
  gen : Nat
  deriving DecidableEq, Repr

/-- The pair (chapter 11); `catchup` are the slices whose catch-up pass runs (R528). -/
structure TwinSt where
  st : PairState
  from_ : PairState
  attemptCmd : Nat
  attemptStart : Nat
  attemptLimit : Nat
  cklWasActive : Bool
  helloSent : Bool
  hello : Option Hello
  senior : Bool
  shedPhase : Nat
  shedSent : Bool
  shedSeen : Bool
  rebuildPending : Bool
  frozen : Bool
  drainOwn : Bool
  drainTwin : Bool
  drainByPair : Bool
  catchup : BitVec 16
  beaconLost : Bool
  noRelay : Bool
  lastRefusal : BitVec 4
  deriving DecidableEq, Repr

/-- A MIR_WRITE that waits for a galley entry of the holder (R285, R524). -/
structure MirIn where
  mtag : Tag
  poison : Bool
  mem : MPort
  full : Bool
  line : Line
  mask : Mask
  data : Data
  deriving DecidableEq, Repr

/-- The messages to and from the twin (chapter 11).  `resend` are lines whose MIR_WRITE waits to be sent (R521), `whole` lines to be read
from the array and sent whole (R525, R528), `busyRetry` lines in the wait of reason BUSY with the tick of the MIR_NAK, `quotaWait` lines that wait for the lines named to be cleaned after reason QUOTA, `naks` the MIR_NAKs, and
the MIR_LOSTs, of each line's newest version, and `promoted` the lines that the promotion sweep queued for writeback (R537). -/
structure MirSt where
  outstanding : List MirOut
  nextMtag : Tag
  busyRetry : List (Line × Nat)
  quotaWait : List (Line × List Line)
  resend : List Line
  whole : List Line
  naks : List ((Line × Bool) × Nat)
  promoted : List Line
  waitIn : List MirIn
  releases : List Line
  ctlSeq : Tag
  sent : Nat
  answered : Nat
  received : Nat
  replied : Nat
  serial : BitVec 128
  beaconSeq : Tag
  failoverSeq : Tag
  lastFailover : Option (Bool × Bool)
  lastBeacon : Option Beacon
  beaconKnown : Bool
  heard : Option Nat
  suspectSince : Nat
  isolatedSince : Option Nat
  degradedShown : Bool
  relCmd : Nat
  deriving DecidableEq, Repr

/-! ### The Jupor controller -/

/-- A command accepted and not yet ended (R581). -/
structure Accepted where
  id : Nat
  ring : Fin 40
  tag : BitVec 16
  opcode : BitVec 16
  start : Nat
  deadline : Option Nat
  base : Nat
  limit : Nat
  counts : List Nat
  todo : List Line
  prived : Bool
  deriving DecidableEq, Repr

/-- GLB_FW_STAT.state (Table 12.13). -/
inductive FwState where
  | rom | running | restarting | halted | recovery
  deriving DecidableEq, Repr

/-- A boot record as the flash holds it (Table 12.9). -/
structure BootRecord where
  active : Bool
  trial : Bool
  trialBoots : Nat
  rolledBack : Bool
  valid0 : Bool
  valid1 : Bool
  generation : Nat
  deriving DecidableEq, Repr

/-- A staging session (R594): its owner, the offset of the next chunk, and the bytes in the staging buffer (R672). -/
structure Session where
  path : Path
  next : Nat
  buffered : Nat
  deriving DecidableEq, Repr

/-- How the boot ROM reads the flash: the number of wires of the opcode, the address and the data (R587). -/
inductive ReadMode where
  | r111 | r114 | r144
  deriving DecidableEq, Repr
/-- What the boot ROM has taken from the SFDP tables (R587). -/
structure Sfdp where
  mode : ReadMode
  dummy : Nat
  fourByte : Bool
  erase : List Nat
  deriving DecidableEq, Repr

/-- The Jupor controller and its rings (chapters 12 and 13).  Ring words are keyed as the ring window is: ring × 65,536 + word.
`versions` are those of the images in slots 0 and 1, `trialRun` says that the running image was loaded on trial (R596), `daRecord` is the data-array record of the image that runs (R449), and `pairAborted` a PAIR_ABORTED that the firmware owes (R516).
`turn1` and `turn0` are the rings from which the two priority classes look for the next command (R578), and `sfdp` is what the boot ROM
took from the flash's tables, none until it has read them (R587). -/
structure JpcSt where
  heads : Tab (BitVec 16)
  tails : Tab (BitVec 16)
  store : Tab Word
  evtSeq : Tab (BitVec 16)
  evtDrops : Tab Nat
  ringDrops : Tab Nat
  unprivSlots : Tab Bool
  accepted : List Accepted
  nextId : Nat
  fw : FwState
  slot : Bool
  sigChecked : Bool
  failCause : BitVec 4
  restartCause : BitVec 3
  restarts : BitVec 8
  faultTicks : List Nat
  hostHalt : Bool
  clockHalt : Bool
  wdogTick : Nat
  version : Word
  versions : List Word
  trialRun : Bool
  session : Option Session
  flash : Tab (BitVec 8)
  record : BootRecord
  recordCopy : Bool
  daRecord : Option (BitVec 128)
  pairAborted : Bool
  dbgWait : List (BitVec 512)
  turn1 : Nat
  turn0 : Nat
  sfdp : Option Sfdp
  deriving DecidableEq, Repr

/-! ### Modes, ink, counters, quoins, islands, proof, errata -/

/-- The modes without SOLO, which the pair state gives (R687), and the settling mask (R686).  `gen` numbers the changes of the modes,
and `changed` holds the number of each mode's last one. -/
structure ModeSt where
  active : BitVec 12
  settling : BitVec 12
  gen : Nat
  changed : Tab Nat
  drainedSince : Nat
  proofReleasing : Bool
  deriving DecidableEq, Repr

/-- What INK_REPORT and INK_PLAN_QUERY state of the last complete epoch besides its registers (R655): the balance, the grant and the
floor, INK_CAP, and for each task of Table 15.2 its ink, its admissions and its deferrals. -/
structure InkLast where
  balance : Nat
  grant : Nat
  floor : Nat
  cap : Bool
  cost : List Nat
  quota : List Nat
  deferred : List Nat
  deriving DecidableEq, Repr

/-- The ink controller (chapter 15): `epoch` is the number of the open epoch, which begins at tick 50,000 × `epoch` (R702, R703).  The
bucket and the measurement of the open epoch (`meas`, `est`, `estTask`) are in 0.001 ink; the ticks name the newest sample, refill,
temperature reading, throttle step and policy check. -/
structure InkSt where
  epoch : Nat
  carry : List Nat
  fgLast : Nat
  quota : List Nat
  used : List Nat
  deferred : List Nat
  last : InkLast
  planned : Bool
  planMissing : Bool
  bucket : Nat
  sensorFault : BitVec 7
  ceilLimiting : Bool
  ceilUs : Nat
  temp : BitVec 8
  warn : Bool
  throttle : Bool
  thermCeil : Option Nat
  meas : Nat
  est : Nat
  estTask : List Nat
  sampleTick : Nat
  refillTick : Nat
  thermTick : Nat
  throttleTick : Nat
  policyTick : Nat
  deriving DecidableEq, Repr

/-- A request chosen for sampling, until its final response leaves (R798). -/
structure Sample where
  port : HPort
  tag : Tag
  agent : Agent
  opcode : BitVec 8
  line : Line
  arrived : Nat
  interval : Nat
  outcome : Nat
  deriving DecidableEq, Repr

/-- A PERF_SNAP that waits for its walk (R664): its descriptor, the privilege it was judged with, and whether its walk is the held one. -/
structure SnapCmd where
  desc : Desc
  prived : Bool
  held : Bool
  deriving DecidableEq, Repr

/-- The snapshot reader and the sampler (chapter 17).  Holding words are keyed set × 1,024 + word; `firstTick` is the tick at which the
walk under way began and `parked` what a stopped island's counters held at its stop, keyed as the counters are (R77). -/
structure PrfSt where
  busy : Bool
  heldStart : Bool
  curSet : Bool
  gen : Word
  holding : Tab Word
  lfsr : Tab Word
  countdown : Tab Nat
  reload : Tab Nat
  smpSeq : Tab (BitVec 16)
  sampled : List Sample
  snapCmd : Option SnapCmd
  firstTick : Nat
  parked : Tab (BitVec 48)
  deriving DecidableEq, Repr

/-- A quoin (R839). -/
structure Quoin where
  owner : BitVec 9
  stale : Bool
  since : Nat
  deriving DecidableEq, Repr

/-- The clock islands (chapter 2), one bit each; `mirror` is the AON copy of the registers (R92), `mirrorTick` the tick of its newest
capture and `parkedTick` the tick of each island's last stop (R98); `wakeTick` is the tick of an island's newest wake cause (R79). -/
structure IslSt where
  run : Word
  clkFail : Word
  failedWindow : Word
  excluded : Word
  waking : Word
  div2 : BitVec 16
  mirror : Tab Word
  mirrorTick : Option Nat
  parkedTick : Tab Nat
  wakeTick : Tab (Option Nat)
  deriving DecidableEq, Repr

/-- A proof run (R659, R661): `state` is 0 queued, 1 running, 2 finished; `evacuating` and `window` say that the block of the next step is
being emptied, or is open for its test (R739, R743); `stopping` that the run ends with the step in hand, and `status` is then the final
status of its command. -/
structure Run where
  id : BitVec 16
  item : BitVec 16
  unit : Nat
  state : Nat
  step : Nat
  steps : Nat
  evacuating : Bool
  window : Bool
  verdict : Nat
  faults : Nat
  cmd : Nat
  stopping : Bool
  status : BitVec 8
  deriving DecidableEq, Repr

/-- A patrol pass (R752, R753): the tick of its start, the chunks done, its number, and whether PATROL_LATE is logged. -/
structure Pass where
  start : Nat
  done : Nat
  number : Nat
  late : Bool
  deriving DecidableEq, Repr

/-- Proof and patrol (chapter 16): runs in the order of acceptance, the exclusion and retirement masks of each slice, and the slices
whose directory bank broadcasts and whose ATOMs stay near for proof (R746). -/
structure ProofSt where
  runs : List Run
  nextRun : BitVec 16
  excl : Tab (BitVec 32)
  retired : Tab (BitVec 32)
  dirLogic : List Nat
  aluNear : List Nat
  data : Pass
  tag : Pass
  sliceLost : List Nat
  frisketSlice : Tab Frisket
  deriving DecidableEq, Repr

/-- An errata-log entry (Table 16.7). -/
structure LogEntry where
  time : Nat
  code : BitVec 16
  sev : BitVec 8
  src : BitVec 8
  copied : Bool
  coalesced : Bool
  repeats : Nat
  a0 : Word
  a1 : Word
  a2 : BitVec 64
  deriving DecidableEq, Repr

/-- The errata log and the slip (R766, R769); both keep their newest entry first.  `bad` are the uncorrectable words of the log: the index
of an entry and the number of its 64-bit word. -/
structure ErrSt where
  log : List (Word × LogEntry)
  next : Word
  oldest : Word
  slip0 : Option LogEntry
  slip : List LogEntry
  degraded : Bool
  unnamed : Bool
  bad : List (Word × Nat)
  frisket : Frisket
  deriving DecidableEq, Repr

/-- The SMBus target, the TAP with its instruction register (Table 21.15), and the capture registers of the paths (R812, R816, R864).  `smbData` and `smbRead` are the data and the
status byte that the last REG_READ returned and `smbStatus` the status of the last REG_WRITE; `readData` is the word that the last register
access of any path returned.  `rcAt` is the tick of the newest clearing read of each counter that the analogue side of a link holds (R96)
and `prbsEnd` that at which a lane's PRBS check last ended (R874), each by word index.
`tapDr` is the data register of the TAP's instruction as it was last captured, and `boundary` the boundary register's cells that drive the
balls (R934, R935): cells 0 to 575 are the DDR5 balls of Table 21.5 and 576 to 603 those of the sideband block, each in the order of its
table (log entry 133). -/
structure AccSt where
  smbData : Word
  smbRead : BitVec 8
  smbStatus : BitVec 8
  tapIr : BitVec 8
  jtagAddr : Word
  jtagData : Word
  jtagDone : Bool
  jtagAbandoned : Bool
  latch : Tab (Option (BitVec 16))
  selVal : Tab Word
  selCap : Tab (List Word)
  readData : Word
  rcAt : Tab Nat
  prbsEnd : Tab Nat
  tapDr : BitVec 604
  boundary : BitVec 604
  deriving DecidableEq, Repr

/-- Everything a command may change but the fuses and the settings of `Cfg`.  `fences` are the links that the command in hand fences
once its violation has been answered (R433), and `settings` the writes of registers whose fields `Cfg` holds; both are empty between
commands.  `out` are the messages that the device has sent and `flits` the flits that carried them, with its control flits, in order. -/
structure M where
  now : Nat
  pins : Pins
  boot : Boot
  regs : Tab Word
  ctrs : Tab (BitVec 48)
  free : Nat
  coh : Coh
  ports : Tab PortSt
  mems : Tab MemSt
  links : Tab LinkSt
  dacs : Tab DacSt
  array : Tab Codeword
  twin : TwinSt
  mir : MirSt
  jpc : JpcSt
  mode : ModeSt
  ink : InkSt
  prf : PrfSt
  quo : Tab Quoin
  isl : IslSt
  proof : ProofSt
  err : ErrSt
  acc : AccSt
  fences : List Lnk
  settings : List (Nat × Word)
  out : List (Lnk × Msg)
  flits : List (Lnk × Flit)
  deriving DecidableEq, Repr

/-- The state of the block. -/
structure State where
  fuse : Fuses
  cfg : Cfg
  m : M
  pending : List Instr
  deriving DecidableEq, Repr

/-! ### Reset values -/

def DirEntry.empty : DirEntry := ⟨0, 0, .I, false, false, false, false, false⟩
def TagEntry.empty : TagEntry := ⟨0, 0, false, 0, false, false, false, false, false, 0, .mpa⟩
def Attrs.unmapped : Attrs := ⟨false, 0, .mpa, false, false, false⟩
def RatEntry.empty : RatEntry := ⟨0, 0⟩
def Codeword.none : Codeword := ⟨false, 0, false, 0⟩
def Frisket.none : Frisket := ⟨false, false, 0, 0, 0⟩
def RsvSlot.empty : RsvSlot := ⟨0, 0, false, 0, false, none⟩
def Quoin.free : Quoin := ⟨0, false, 0⟩
def Epochs.empty : Epochs := ⟨0, [], [], []⟩
def PortSt.reset : PortSt :=
  ⟨[], [], [], 0, [], [], [], none, none, 0xFFFFFFFF, [], [], [], [], [], []⟩
def MemSt.reset : MemSt := ⟨[], [], [], 0, []⟩

/-- A link as cold reset leaves it: DOWN in the bring-up hold (R889). -/
def LinkSt.reset : LinkSt where
  st := .down
  since := 0
  inactive := 0
  groups := 0
  trained := 0
  common := 0
  rxFailed := 0
  txFailed := 0
  retrainFails := 0
  downReason := 0
  bringupHold := true
  nakPending := false
  nakTick := 0
  rxExpected := 0
  txSeq := 0
  lastAck := 0xFFF
  replay := []
  replayStalls := 0
  ackTick := 0
  lastValid := 0
  payloadRun := 0
  txRun := 0
  rxFlits := 0
  winBad := []
  retrained := false
  avail := [0, 0, 0, 0]
  adv := [0, 0, 0, 0]
  rxTotals := [0, 0, 0, 0]
  peerTotals := [0, 0, 0, 0]
  rxFree := [0, 0, 0, 0]
  rxPend := [0, 0, 0, 0]
  rxDataSlots := 0
  txq := []
  violTicks := []
  fullHold := false
  timerReplay := none
  nakReplay := none
  aligned := false
  partnerMax := 3
  laneMap := []
  taps := []
  atLimit := []
  ran := false
  cmds := []

def DacSt.reset : DacSt where
  st := .reset
  marks := 0
  markCause := []
  trainFail := 0
  sref := false
  rate2x := false
  rateNext := false
  sameBank := false
  sameBankNext := false
  failCause := 0
  stepDone := 0
  stepFailed := 0
  corrections := []
  diag := none
  diagEnd := none
  frisket := .none
  tracked := true
  stoppedAt := none
  swept := false

def Coh.reset : Coh where
  tags := []
  dir := []
  lost := []
  galley := []
  txns := []
  waiting := []
  spans := []
  rsv := []
  starve := []
  history := []
  predictor := []
  sliceSticks := []
  daReads := []
  staging := []
  fills := []
  looked := []
  syncs := []
  galleyFull := []
  sweeps := []
  notices := []
  bad := []

def TwinSt.reset : TwinSt where
  st := .unpaired
  from_ := .unpaired
  attemptCmd := 0
  attemptStart := 0
  attemptLimit := 0
  cklWasActive := false
  helloSent := false
  hello := none
  senior := false
  shedPhase := 0
  shedSent := false
  shedSeen := false
  rebuildPending := false
  frozen := false
  drainOwn := false
  drainTwin := false
  drainByPair := false
  catchup := 0
  beaconLost := false
  noRelay := false
  lastRefusal := 0

def MirSt.reset : MirSt where
  outstanding := []
  nextMtag := 1
  busyRetry := []
  quotaWait := []
  resend := []
  whole := []
  naks := []
  promoted := []
  waitIn := []
  releases := []
  ctlSeq := 0
  sent := 0
  answered := 0
  received := 0
  replied := 0
  serial := 0
  beaconSeq := 0
  failoverSeq := 1
  lastFailover := none
  lastBeacon := none
  beaconKnown := false
  heard := none
  suspectSince := 0
  isolatedSince := none
  degradedShown := false
  relCmd := 0

/-- The flash's boot record that neither copy gives: slot 0, no trial, both slots valid (R589). -/
def BootRecord.blank : BootRecord := ⟨false, false, 0, false, true, true, 0⟩

def JpcSt.reset : JpcSt where
  heads := []
  tails := []
  store := []
  evtSeq := []
  evtDrops := []
  ringDrops := []
  unprivSlots := []
  accepted := []
  nextId := 1
  fw := .rom
  slot := false
  sigChecked := false
  failCause := 0
  restartCause := 0
  restarts := 0
  faultTicks := []
  hostHalt := false
  clockHalt := false
  wdogTick := 0
  version := 0
  versions := [0, 0]
  trialRun := false
  session := none
  flash := []
  record := .blank
  recordCopy := false
  daRecord := none
  pairAborted := false
  dbgWait := []
  turn1 := 0
  turn0 := 0
  sfdp := none

/-- GLB_MODE_ACTIVE resets to 0x0000_0C61 (Table 14.1); bit 11, SOLO, is read from the pair state. -/
def ModeSt.reset : ModeSt := ⟨0x461, 0, 0, [], 0, false⟩

def InkLast.reset : InkLast := ⟨0, 190000, 120000, true, [0, 0, 0, 0, 0, 0], [0, 0, 0, 0, 0, 0], [0, 0, 0, 0, 0, 0]⟩

/-- The bucket is full (Table 19.2): 20 µs at the ceiling that the fuses give, `fuse` in units of 0.25 W (R725). -/
def InkSt.reset (fuse : Nat) : InkSt where
  epoch := 0
  carry := [0, 0, 0, 0]
  fgLast := 0
  quota := [0, 0, 0, 0, 0, 0]
  used := [0, 0, 0, 0, 0, 0]
  deferred := [0, 0, 0, 0, 0, 0]
  last := .reset
  planned := false
  planMissing := false
  bucket := fuse * 5000
  sensorFault := 0
  ceilLimiting := false
  ceilUs := 0
  temp := 0
  warn := false
  throttle := false
  thermCeil := none
  meas := 0
  est := 0
  estTask := [0, 0, 0, 0, 0, 0]
  sampleTick := 0
  refillTick := 0
  thermTick := 0
  throttleTick := 0
  policyTick := 0

def PrfSt.reset : PrfSt where
  busy := false
  heldStart := false
  curSet := false
  gen := 0
  holding := []
  lfsr := [(0, 1), (1, 2)]
  countdown := []
  reload := []
  smpSeq := []
  sampled := []
  snapCmd := none
  firstTick := 0
  parked := []

/-- Islands present on the variant: the CKL and DAC4 to DAC7 may be absent (R68, Table 0.1). -/
def presentIslands (v : Variant) : Word :=
  match v with
  | .px2932 => 0xFFFFFFFF
  | .sx2932 => 0xDFFFFFFF
  | .px2916 => 0xE1FFFFFF
  | .sb2916 => 0xC1FFFFFF

def IslSt.reset (v : Variant) : IslSt where
  run := presentIslands v
  clkFail := 0
  failedWindow := 0
  excluded := 0
  waking := 0
  div2 := 0
  mirror := []
  mirrorTick := none
  parkedTick := []
  wakeTick := []

def ProofSt.reset : ProofSt where
  runs := []
  nextRun := 1
  excl := []
  retired := []
  dirLogic := []
  aluNear := []
  data := ⟨0, 0, 0, false⟩
  tag := ⟨0, 0, 0, false⟩
  sliceLost := []
  frisketSlice := []

def ErrSt.reset : ErrSt := ⟨[], 0, 0, none, [], false, false, [], .none⟩

def AccSt.reset : AccSt := ⟨0, 0, 0, 2, 0, 0, true, false, [], [], [], 0, [], [], 0, 0⟩

/-- The settings after cold reset (Table 20.6, R710, Table 17.11, R752, R768). -/
def Cfg.reset (v : Variant) : Cfg where
  rat := []
  ratWrites := 0
  appPolicy := if v = .sb2916 then 0x35 else 0x30
  grant := 190000
  floor := 120000
  grantNext := 190000
  floorNext := 120000
  smpExp := 10
  smpMask := 3
  smpDither := true
  histShift := 5
  patrolMinutes := 1440
  patrolTargets := 3
  patrolDiag := true
  logSeverity := 0xFF
  logClasses := 0xFFFFFFFF

/-- The device the model starts as: an FJ2932-PX-C of stepping 0x01 (R1); the fused words are the model's (log entry 1). -/
def Fuses.model : Fuses where
  variant := .px2932
  industrial := false
  stepping := 1
  serialLow := 0
  sigRequired := false
  powerFuse := 760
  romVersion := 0
  keyHash := 0
  linkLimit := 0x0007FFFF
  txeqDefault := 0

/-- The pins while COLD_RST_N holds the device (R879). -/
def Pins.reset : Pins := ⟨false, false, 0, false, false, false, false, false⟩

/-- Everything but the fuses and settings, as cold reset leaves it (Table 20.5). -/
def M.reset (f : Fuses) : M where
  now := 0
  pins := .reset
  boot := ⟨0, 0, false, none, false, false⟩
  regs := []
  ctrs := []
  free := 0
  coh := .reset
  ports := []
  mems := []
  links := []
  dacs := []
  array := []
  twin := .reset
  mir := .reset
  jpc := .reset
  mode := .reset
  ink := .reset f.powerFuse.toNat
  prf := .reset
  quo := []
  isl := .reset f.variant
  proof := .reset
  err := .reset
  acc := .reset
  fences := []
  settings := []
  out := []
  flits := []

/-- The block right after COLD_RST_N has gone low and before it rises (R879, Table 20.5). -/
def State.reset : State where
  fuse := .model
  cfg := .reset .px2932
  m := .reset .model
  pending := []

end Sys2Proof.Machine
end

