-- ==== Sys2Proof/Machine/Table.lean ====
section
/-!
DEFINITION. Sparse tables in one canonical form: keys strictly rising, no entry equal to what an unlisted key reads as.
-/

namespace Sys2Proof.Machine

open Sys2Proof

/-- What a key reads as: its first entry; `d` gives an unlisted key its value. -/
def Tab.get {α : Type} (d : Nat → α) : Tab α → Nat → α
  | [], k => d k
  | (j, v) :: t, k => if k = j then v else Tab.get d t k

/-- Drops every entry whose key `p` holds of: those keys read as their default again. -/
def Tab.drop {α : Type} (p : Nat → Bool) (t : Tab α) : Tab α := t.filter fun e => !p e.1

/-- The table with key `k` reading as `v`; no other entry of `k` remains, and the canonical form is kept. -/
def Tab.put {α : Type} [DecidableEq α] (d : Nat → α) : Tab α → Nat → α → Tab α
  | [], k, v => if v = d k then [] else [(k, v)]
  | (j, w) :: t, k, v =>
    if k = j then (if v = d k then Tab.drop (· == k) t else (k, v) :: Tab.drop (· == k) t)
    else if k < j then (if v = d k then (j, w) :: Tab.drop (· == k) t else (k, v) :: (j, w) :: Tab.drop (· == k) t)
    else (j, w) :: Tab.put d t k v

/-- Whether every key of the table lies above `b`, rising, with no listed default. -/
def Tab.wfFrom {α : Type} [DecidableEq α] (d : Nat → α) : Nat → Tab α → Bool
  | _, [] => true
  | b, (j, v) :: t => decide (b ≤ j) && decide (v ≠ d j) && Tab.wfFrom d (j + 1) t

/-- The canonical form. -/
def Tab.wf {α : Type} [DecidableEq α] (d : Nat → α) (t : Tab α) : Bool := Tab.wfFrom d 0 t

/-- Changes the entry of one key. -/
def Tab.upd {α : Type} [DecidableEq α] (d : Nat → α) (t : Tab α) (k : Nat) (f : α → α) : Tab α :=
  Tab.put d t k (f (Tab.get d t k))

/-- The table with every listed entry changed in place; an entry that becomes its default leaves the list. -/
def Tab.mapVals {α : Type} [DecidableEq α] (d : Nat → α) (f : Nat → α → α) : Tab α → Tab α
  | [] => []
  | (k, v) :: t => if f k v = d k then Tab.drop (· == k) (Tab.mapVals d f t) else (k, f k v) :: Tab.mapVals d f t

end Sys2Proof.Machine
end

