-- ==== Sys2Proof/Machine/Operands.lean ====
section
/-!
DEFINITION. Operand forms: indices of links, ports and islands, the imposition, the places of lines in the arrays, the fields
of headers, byte masks, the atomic operations, the serial number and the Region Attribute Table.
-/

namespace Sys2Proof

/-! ### Indices -/

def HPort.n : HPort → Nat | .hpa => 0 | .hpb => 1
def MPort.n : MPort → Nat | .mpa => 0 | .mpb => 1
/-- The link field of Table 13.1. -/
def Lnk.n : Lnk → Nat | .hpa => 0 | .hpb => 1 | .mpa => 2 | .mpb => 3 | .ckl => 4
def HPort.lnk : HPort → Lnk | .hpa => .hpa | .hpb => .hpb
def MPort.lnk : MPort → Lnk | .mpa => .mpa | .mpb => .mpb
def HPort.other : HPort → HPort | .hpa => .hpb | .hpb => .hpa
def MPort.other : MPort → MPort | .mpa => .mpb | .mpb => .mpa
def Lnk.host : Lnk → Option HPort | .hpa => some .hpa | .hpb => some .hpb | _ => none
def Lnk.mem : Lnk → Option MPort | .mpa => some .mpa | .mpb => some .mpb | _ => none
def Lnk.ofField : Nat → Option Lnk
  | 0 => some .hpa | 1 => some .hpb | 2 => some .mpa | 3 => some .mpb | 4 => some .ckl | _ => none
def Path.n : Path → Nat | .hpa => 0 | .hpb => 1 | .smbus => 2 | .jtag => 3 | .jpc => 4
def Path.host : Path → Option HPort | .hpa => some .hpa | .hpb => some .hpb | _ => none
/-- Island indices of Table 2.1. -/
def Lnk.island : Lnk → Nat | .hpa => 17 | .hpb => 18 | .mpa => 19 | .mpb => 20 | .ckl => 29
/-- The lane groups of a link (Table 7.1). -/
def Lnk.allGroups : Lnk → BitVec 3 | .hpa | .hpb => 7 | .mpa | .mpb => 3 | .ckl => 1
/-- The lanes of a link in each direction (Table 7.1). -/
def Lnk.lanes : Lnk → Nat | .hpa | .hpb => 24 | .mpa | .mpb => 16 | .ckl => 8
/-- The base of a link block, as a word index (Table 19.1). -/
def Lnk.base : Lnk → Nat
  | .hpa => 0x10000 | .hpb => 0x11000 | .mpa => 0x12000 | .mpb => 0x13000 | .ckl => 0xA000
/-- slot_map of WR_PART, WR_NT and CND_ST (Table 8.4). -/
def ReqHdr.slotMap (h : ReqHdr) : BitVec 8 := h.opf.setWidth 8
def ReqHdr.cfgAddr (h : ReqHdr) : Word := h.line.setWidth 32
def ReqHdr.cfgData (h : ReqHdr) : Word := (h.opf.setWidth 19) ++ (h.line.extractLsb' 32 13)

end Sys2Proof

namespace Sys2Proof.Machine

open Sys2Proof

def dacIsland (d : Nat) : Nat := 21 + d
def agentPort (a : Agent) : HPort := if a.getLsbD 5 then .hpb else .hpa
/-- The 32 agents of a port as a mask over the 64 agents (Table 4.1). -/
def portMask : HPort → BitVec 64 | .hpa => 0xFFFFFFFF | .hpb => 0xFFFFFFFF00000000
def agentBit (a : Agent) : BitVec 64 := (1 : BitVec 64) <<< a.toNat

/-! ### Variants (Tables 0.1 to 0.3) -/

def Variant.dacs : Variant → Nat | .px2932 | .sx2932 => 8 | _ => 4
def Variant.tagFull : Variant → Bool | .px2932 | .sx2932 => true | _ => false
def Variant.ckl : Variant → Bool | .px2932 | .px2916 => true | _ => false
def Variant.far : Variant → Bool | .sb2916 => false | _ => true
def Variant.sample : Variant → Bool | .sb2916 => false | _ => true
def Variant.code : Variant → Nat | .px2932 => 1 | .sx2932 => 2 | .px2916 => 3 | .sb2916 => 4
def Variant.sets (v : Variant) : Nat := if v.tagFull then 32768 else 16384
def Variant.dacMask (v : Variant) : Nat := if v.tagFull then 0xFF else 0x0F

/-- The grade-and-variant byte (Table 0.3). -/
def Fuses.grade (f : Fuses) : BitVec 8 := BitVec.ofNat 8 (f.variant.code + 16 * bit f.industrial)

/-- COL_CAPS (Table 0.2). -/
def Fuses.caps (f : Fuses) : Word :=
  BitVec.ofNat 32 (f.variant.dacMask + 256 * bit f.variant.ckl + 512 * bit f.variant.far
    + 1024 * bit f.variant.sample + 2048 * bit f.variant.tagFull + 4096 * f.grade.toNat + 16777216 * f.stepping.toNat)

/-- One byte of the CRC-16 of R624. -/
def crc16Byte (c : BitVec 16) (b : BitVec 8) : BitVec 16 :=
  (List.range 8).foldl (fun x _ => if x.msb then (x <<< 1) ^^^ 0x1021 else x <<< 1) (c ^^^ (b.setWidth 16 <<< 8))

/-- The check field over bytes 0 to 13 of a serial number (R624). -/
def serialCheck (low : BitVec 112) : BitVec 16 :=
  (List.range 14).foldl (fun c i => crc16Byte c (low.extractLsb' (8 * i) 8)) 0xFFFF

/-- The serial number (R623): the fused fields, the grade-and-variant byte and the check. -/
def Fuses.serial (f : Fuses) : BitVec 128 :=
  let low : BitVec 112 := f.grade ++ f.serialLow
  serialCheck low ++ low

/-! ### The imposition (R115) and the places that follow from it -/

/-- The byte address of a line. -/
def pa (l : Line) : Nat := l.toNat * 128
def twinSide (l : Line) : Bool :=
  (l.getLsbD 5 ^^ l.getLsbD 13) ^^ (l.getLsbD 21 ^^ l.getLsbD 29) ^^ l.getLsbD 37
def sliceOf (l : Line) : Nat :=
  (l.extractLsb' 6 4 ^^^ l.extractLsb' 14 4 ^^^ l.extractLsb' 22 4 ^^^ l.extractLsb' 30 4 ^^^ l.extractLsb' 38 4).toNat
def setOf (v : Variant) (l : Line) : Nat := pa l / 131072 % v.sets
def folioOf (l : Line) : Folio := l.extractLsb' 5 40
def lineIndex (l : Line) : Nat := (l.extractLsb' 0 5).toNat
def tagOf (l : Line) : BitVec 35 := l.extractLsb' 10 35
def pa12 (l : Line) : Bool := l.getLsbD 5
/-- The directory set (R168). -/
def dirSet (l : Line) : Nat :=
  ((l.extractLsb' 10 8 ^^^ l.extractLsb' 18 8) ++ l.extractLsb' 0 5 : BitVec 13).toNat
/-- The predictor index within the slice (R232). -/
def appIndex (l : Line) : Nat :=
  (l.extractLsb' 0 8 ^^^ l.extractLsb' 8 8 ^^^ l.extractLsb' 16 8 ^^^ l.extractLsb' 24 8
    ^^^ l.extractLsb' 32 8 ^^^ (l.extractLsb' 40 5).setWidth 8).toNat
/-- The key of way `w` of a line's tag set. -/
def tagKey (v : Variant) (l : Line) (w : Nat) : Nat := (sliceOf l * 32768 + setOf v l) * 16 + w
/-- The key of way `w` of a line's directory set. -/
def dirKey (l : Line) (w : Nat) : Nat := (sliceOf l * 8192 + dirSet l) * 16 + w
/-- The key of a line's lost bit (R172). -/
def lostKey (l : Line) : Nat := sliceOf l * 8192 + dirSet l
/-- The DAC that holds a line (Table 10.4). -/
def dacOf (v : Variant) (l : Line) : Nat := (lineIndex l + sliceOf l) % v.dacs
/-- The codeword address of one half of a line in way `w` (Table 10.4). -/
def cwAddr (v : Variant) (l : Line) (w half : Nat) : Nat :=
  ((((sliceOf l * v.sets + setOf v l) * 16 + w) * (32 / v.dacs)) + lineIndex l / v.dacs) * 2 + half
/-- The key of a codeword in the data array. -/
def cwKey (v : Variant) (l : Line) (w half : Nat) : Nat := dacOf v l * 67108864 + cwAddr v l w half

/-! ### Sectors (Table 3.4) -/

/-- The state of sector `k` of a folio: 0 Invalid, 1 Clean, 2 Dirty not mirrored (Pending), 3 Dirty mirrored (Held). -/
def TagEntry.sector (e : TagEntry) (k : Nat) : Nat := (e.sectors.extractLsb' (2 * k) 2).toNat
def TagEntry.setSector (e : TagEntry) (k v : Nat) : TagEntry :=
  { e with sectors := (e.sectors &&& ~~~((3 : BitVec 64) <<< (2 * k))) ||| (BitVec.ofNat 64 (v % 4) <<< (2 * k)) }
def TagEntry.isEmpty (e : TagEntry) : Bool := e.sectors == 0
def TagEntry.dirtyCount (e : TagEntry) : Nat := ((List.range 32).filter fun k => 2 ≤ e.sector k).length
/-- The two words of a tag entry (R119, Table 3.3). -/
def TagEntry.word1 (e : TagEntry) : BitVec 64 :=
  BitVec.ofNat 64 (e.tag.toNat + bit e.pa12 * 2^35 + e.age.toNat * 2^36 + bit e.mirrorFolio * 2^39 + bit e.evac * 2^40
    + bit e.poisonAny * 2^41 + bit e.pinned * 2^42 + bit e.adopted * 2^43 + e.regionClass.toNat * 2^45 + e.memPort.n * 2^48)
def DirState.n : DirState → Nat | .I => 0 | .S => 1 | .E => 2 | .M => 3
/-- Word 1 of a directory entry (Table 4.1). -/
def DirEntry.word1 (e : DirEntry) : BitVec 64 :=
  BitVec.ofNat 64 (e.lineTag.toNat + e.st.n * 2^45 + bit e.ownerValid * 2^47 + bit e.grantPending * 2^48
    + bit e.txnOpen * 2^49 + bit e.recoverHold * 2^50 + bit e.fillReserved * 2^51)

/-- The entry that the two words of a tag entry give; the reserved bits hold nothing. -/
def TagEntry.ofWords (a b : BitVec 64) : TagEntry :=
  ⟨a, b.setWidth 35, b.getLsbD 35, b.extractLsb' 36 3, b.getLsbD 39, b.getLsbD 40, b.getLsbD 41, b.getLsbD 42, b.getLsbD 43,
    b.extractLsb' 45 3, if b.getLsbD 48 then .mpb else .mpa⟩
/-- The entry that the two words of a directory entry give. -/
def DirEntry.ofWords (a b : BitVec 64) : DirEntry :=
  ⟨a, b.setWidth 45, match (b.extractLsb' 45 2).toNat with | 0 => .I | 1 => .S | 2 => .E | _ => .M,
    b.getLsbD 47, b.getLsbD 48, b.getLsbD 49, b.getLsbD 50, b.getLsbD 51⟩

/-! ### Headers, masks and bytes -/

/-- The ATOM fields (Table 8.4): offset, op, size, hint. -/
def atomOffset (opf : BitVec 51) : Nat := (opf.setWidth 7).toNat
def atomOp (opf : BitVec 51) : Nat := (opf.extractLsb' 7 4).toNat
def atomSize (opf : BitVec 51) : Nat := (opf.extractLsb' 11 2).toNat
def atomHint (opf : BitVec 51) : Nat := (opf.extractLsb' 13 2).toNat
/-- The 16-bit span of mask bits that each carried slot may enable (Table 8.5). -/
def slotMask (sm : BitVec 8) : Mask :=
  (List.range 8).foldl (fun acc k => if sm.getLsbD k then acc ||| ((0xFFFF : Mask) <<< (16 * k)) else acc) 0
/-- The byte mask spread over the bits of a line. -/
def bitMask (m : Mask) : Data :=
  (List.range 128).foldl (fun acc k => if m.getLsbD k then acc ||| ((0xFF : Data) <<< (8 * k)) else acc) 0
/-- `new` where the mask enables a byte, `old` elsewhere. -/
def mergeBytes (old new : Data) (m : Mask) : Data :=
  if m = BitVec.allOnes 128 then new else (old &&& ~~~(bitMask m)) ||| (new &&& bitMask m)
def fullMask : Mask := BitVec.allOnes 128

/-- The operand size of an ATOM in bytes (Table 5.1). -/
def atomBytes (size : Nat) : Nat := 4 * 2 ^ size

/-- The result of an atomic operation on `n` bytes (Table 5.1); `a` is opnd, or cmp for CAS, and `b` is swp. -/
def atomResult (op n : Nat) (old a b : Nat) : Nat :=
  let w := 2 ^ (8 * n)
  let sgn (x : Nat) : Int := if x < w / 2 then (x : Int) else (x : Int) - w
  match op with
  | 0 => (old + a) % w
  | 1 => a
  | 2 => if old = a then b else old
  | 3 => old &&& a
  | 4 => old ||| a
  | 5 => old ^^^ a
  | 6 => if sgn old ≤ sgn a then old else a
  | 7 => if sgn a ≤ sgn old then old else a
  | 8 => min old a
  | _ => max old a

/-- The operand of an ATOM within its line. -/
def atomOld (opf : BitVec 51) (line : Data) : Nat :=
  (line.toNat / 2 ^ (8 * atomOffset opf)) % 2 ^ (8 * atomBytes (atomSize opf))

/-- The byte mask that covers the operand of an ATOM (R242). -/
def atomMask (opf : BitVec 51) : Mask :=
  BitVec.ofNat 128 (2 ^ atomBytes (atomSize opf) - 1) <<< atomOffset opf

/-- The line after a far ATOM whose operand slots are the low 256 bits of `slots` (R241, Table 8.5). -/
def atomApply (opf : BitVec 51) (line slots : Data) : Data :=
  let n := atomBytes (atomSize opf)
  let w := 2 ^ (8 * n)
  let r := atomResult (atomOp opf) n (atomOld opf line) (slots.toNat % w) (slots.toNat / 2^128 % w)
  mergeBytes line (BitVec.ofNat 1024 r <<< (8 * atomOffset opf)) (atomMask opf)

/-- Half `h` of a line (R113). -/
def halfOf (d : Data) (h : Nat) : BitVec 512 := d.extractLsb' (512 * h) 512
def joinHalves (lo hi : BitVec 512) : Data := hi ++ lo

/-! ### The Region Attribute Table (R149 to R157) -/

def RatEntry.valid (e : RatEntry) : Bool := e.word0.getLsbD 63
def RatEntry.base (e : RatEntry) : Nat := (e.word0.setWidth 40).toNat
def RatEntry.limit (e : RatEntry) : Nat := (e.word1.setWidth 40).toNat
def RatEntry.cls (e : RatEntry) : BitVec 3 := e.word0.extractLsb' 40 3
def RatEntry.earlyAck (e : RatEntry) : Bool := e.word0.getLsbD 45
/-- The cases in which RAT_WRITE refuses an entry (R151). -/
def RatEntry.legal (e : RatEntry) : Bool :=
  decide (e.base ≤ e.limit) && decide (e.cls.toNat ≤ 4) && !(e.cls == 4 && e.earlyAck)
    && e.word0.extractLsb' 47 16 == 0 && e.word1.extractLsb' 40 24 == 0
def RatEntry.attrs (e : RatEntry) : Attrs :=
  ⟨true, e.cls, if e.word0.getLsbD 43 then .mpb else .mpa, e.word0.getLsbD 44, e.earlyAck, e.word0.getLsbD 46⟩
def RatEntry.covers (e : RatEntry) (f : Nat) : Bool := e.valid && decide (e.base ≤ f) && decide (f ≤ e.limit)
def ratEntry (t : Tab RatEntry) (n : Nat) : RatEntry := Tab.get (fun _ => RatEntry.empty) t n

/-- The index of the entry that decides a folio: the lowest valid one that covers it (R153). -/
def ratWinner (t : Tab RatEntry) (f : Nat) : Option Nat := (List.range 64).find? fun n => (ratEntry t n).covers f
def ratAttrs (t : Tab RatEntry) (f : Nat) : Attrs :=
  match ratWinner t f with
  | some n => (ratEntry t n).attrs
  | none => .unmapped

/-- The bounds at which the winner of a folio can change: every base and every limit + 1 of a valid entry. -/
def ratEdges (t : Tab RatEntry) : List Nat :=
  (List.range 64).flatMap fun n => if (ratEntry t n).valid then [(ratEntry t n).base, (ratEntry t n).limit + 1] else []

/-- One widening of a span: to the nearest edge below and above over which the winner stays the same. -/
def widenDown (t : Tab RatEntry) (w : Option Nat) : Nat → Nat → Nat
  | 0, lo => lo
  | k + 1, lo =>
    if lo = 0 then 0
    else if ratWinner t (lo - 1) = w then
      widenDown t w k (((ratEdges t).filter (· ≤ lo - 1)).foldl max 0)
    else lo
def widenUp (t : Tab RatEntry) (w : Option Nat) : Nat → Nat → Nat
  | 0, hi => hi
  | k + 1, hi =>
    if 2 ^ 40 ≤ hi then 2 ^ 40
    else if ratWinner t hi = w then
      widenUp t w k (((ratEdges t).filter (hi < ·)).foldl min (2 ^ 40))
    else hi

/-- The span returned to an attribute cache (R156, R157): the folios `lo` to `hi`, both included. -/
def ratSpan (t : Tab RatEntry) (f : Nat) : Nat × Nat :=
  let w := ratWinner t f
  let n := (ratEdges t).length + 2
  (widenDown t w n (((ratEdges t).filter (· ≤ f)).foldl max 0),
   widenUp t w n (((ratEdges t).filter (f < ·)).foldl min (2 ^ 40)) - 1)

/-! ### Descriptors and checks -/

/-- Descriptor bytes `k` to `k + n - 1` (R611). -/
def descArg (d : Desc) (k n : Nat) : Nat := d.args.toNat / 2 ^ (8 * (k - 8)) % 2 ^ (8 * n)

/-- One byte of CRC-32C, reflected (R325). -/
def crc32Byte (c : Word) (b : BitVec 8) : Word :=
  (List.range 8).foldl (fun x _ => if x.getLsbD 0 then (x >>> 1) ^^^ 0x82F63B78 else x >>> 1) (c ^^^ b.setWidth 32)
/-- CRC-32C over `n` bytes of a bit string, byte 0 first (R325). -/
def crc32 {w : Nat} (x : BitVec w) (n : Nat) : Word :=
  ~~~((List.range n).foldl (fun c i => crc32Byte c (x.extractLsb' (8 * i) 8)) 0xFFFFFFFF)
/-- rat_crc (R503). -/
def ratCrc (t : Tab RatEntry) : Word :=
  ~~~((List.range 64).foldl (fun c n =>
      let e := ratEntry t n
      (List.range 16).foldl (fun c i => crc32Byte c ((e.word1 ++ e.word0).extractLsb' (8 * i) 8)) c) 0xFFFFFFFF)

end Sys2Proof.Machine
end

