-- ==== Sys2Proof/Machine/Flit.lean ====
section
/-!
DEFINITION. The flits that the device sends: the headers and data slots of its messages (Tables 8.1 to 8.5, 11.2 and 11.3), the packing
of a bundle into the slots of PAYLOAD flits (R366 to R370), and the 72 bytes of a flit (Tables 7.4, 7.5, 7.8 and 7.9).
-/

namespace Sys2Proof.Machine

open Sys2Proof

/-! ### Headers (Tables 8.2 to 8.4, R502, Table 11.3) -/

/-- A header from its fields, each with its lowest bit and its value. -/
def hdr (fs : List (Nat × Nat)) : BitVec 128 := BitVec.ofNat 128 (fs.foldl (fun n f => n + f.2 * 2 ^ f.1) 0)

/-- Slot `k` of a line's bytes. -/
def lineSlot (d : Data) (k : Nat) : BitVec 128 := d.extractLsb' (128 * k) 128
/-- The slots of a line in which a mask enables a byte: the bits of slot_map (Table 8.4). -/
def slotsOf (mask : Mask) : List Nat := (List.range 8).filter fun k => mask.extractLsb' (16 * k) 16 != 0
def slotMapOf (mask : Mask) : Nat := (slotsOf mask).foldl (fun n k => n + 2 ^ k) 0
/-- The data slots of a write: the eight slots of the line, or its mask slot and the slots of slot_map (Table 8.5). -/
def writeSlots (full : Bool) (mask : Mask) (d : Data) : List (BitVec 128) :=
  if full then (List.range 8).map (lineSlot d) else mask :: (slotsOf mask).map (lineSlot d)

/-- The common fields of the CTL headers (Table 11.3). -/
def Ctl.fields (op : Nat) (c : Ctl) : List (Nat × Nat) := [(0, op), (8, c.seq.toNat), (32, c.state.toNat), (36, bit c.side)]

/-- The header of a message that travels in a PAYLOAD flit, and whether it is long. -/
def Msg.header : Msg → BitVec 128 × Bool
  | .grant k tag => (hdr [(0, match k with | .s => 0x30 | .e => 0x31 | .m => 0x32), (8, tag.toNat)], false)
  | .data tag p n _ => (hdr [(0, 0x34), (8, tag.toNat), (20, bit p), (21, n % 16)], false)
  | .cmp tag ok => (hdr [(0, 0x35), (8, tag.toNat), (20, bit ok)], false)
  | .cmpEarly tag => (hdr [(0, 0x36), (8, tag.toNat)], false)
  | .err tag code => (hdr [(0, 0x37), (8, tag.toNat), (20, code % 256)], false)
  | .snp k tag a b l =>
    (hdr [(0, match k with | .share => 0x20 | .inv => 0x21 | .fetchInv => 0x22), (8, tag.toNat), (20, a.toNat), (26, bit b),
      (32, l.toNat)], true)
  | .failover seq adopt side _ => (hdr [(0, 0x3C), (8, seq.toNat), (20, if adopt then 1 else 2), (23, bit side)], true)
  | .beacon b =>
    (hdr [(0, 0x3D), (8, b.seq.toNat), (20, b.pairState.toNat), (24, bit b.drainDone), (25, bit b.adopted),
      (26, bit b.cklUp), (27, bit b.side)], true)
  | .memRd tag l => (hdr [(0, 0x04), (8, tag.toNat), (32, l.toNat)], true)
  | .memWr tag l full mask _ p =>
    (hdr [(0, if full then 0x08 else 0x09), (8, tag.toNat), (26, bit p), (32, l.toNat),
      (77, if full then 0 else slotMapOf mask)], true)
  | .pairHello h =>
    (hdr (Ctl.fields 0x40 ⟨h.ctlSeq, h.pairState, h.side⟩
      ++ [(37, h.variant.toNat), (41, h.stepping.toNat), (49, h.ratCrc.toNat), (81, h.proto.toNat)]), true)
  | .pairRefuse c reason => (hdr (c.fields 0x41 ++ [(81, reason % 16)]), true)
  | .shedDone c => (hdr (c.fields 0x42), true)
  | .pairCommit c => (hdr (c.fields 0x43), true)
  | .releaseHalf c => (hdr (c.fields 0x44), true)
  | .releaseAck c => (hdr (c.fields 0x45), true)
  | .mirWrite tag p mem full l mask _ =>
    (hdr [(0, 0x48), (8, tag.toNat), (20, bit p), (21, mem.n), (22, bit full), (32, l.toNat),
      (77, if full then 0 else slotMapOf mask)], true)
  | .mirRelease l => (hdr [(0, 0x49), (32, l.toNat)], true)
  | .mirFetch tag l => (hdr [(0, 0x4A), (8, tag.toNat), (32, l.toNat)], true)
  | .mirAck tag => (hdr [(0, 0x50), (8, tag.toNat)], false)
  | .mirNak tag reason => (hdr [(0, 0x51), (8, tag.toNat), (20, reason % 4)], false)
  | .mirData tag p _ => (hdr [(0, 0x52), (8, tag.toNat), (20, bit p)], false)
  | .mirLost tag l => (hdr [(0, 0x53), (8, tag.toNat), (32, l.toNat)], true)
  | .idle | .nak _ | .retrainReq | .init _ => (0, false)

/-- The data slots of a message (Table 8.5). -/
def Msg.slots : Msg → List (BitVec 128)
  | .data _ _ n d => (List.range n).map (lineSlot d)
  | .failover _ _ _ serial => [serial]
  | .beacon b => [b.serial]
  | .memWr _ _ full mask d _ => writeSlots full mask d
  | .pairHello h => [h.serial]
  | .mirWrite _ _ _ full _ mask d => writeSlots full mask d
  | .mirData _ _ d => (List.range 8).map (lineSlot d)
  | _ => []

/-! ### Credits and packing (R343, R365 to R370) -/

/-- The credit class of a message, as crd_class codes it, and its data slots (Tables 8.1, 11.1 and 11.2). -/
def Msg.cost : Msg → Nat × Nat
  | .grant _ _ => (2, 0)
  | .data _ _ n _ => (2, n)
  | .cmp _ _ => (2, 0)
  | .cmpEarly _ => (2, 0)
  | .err _ _ => (2, 0)
  | .snp _ _ _ _ _ => (1, 0)
  | .failover _ _ _ _ => (2, 1)
  | .beacon _ => (2, 1)
  | .memRd _ _ => (0, 0)
  | .memWr _ _ full mask _ _ => (0, if full then 8 else 1 + (slotsOf mask).length)
  | .pairHello _ => (0, 1)
  | .pairRefuse _ _ => (0, 0)
  | .shedDone _ | .pairCommit _ | .releaseHalf _ | .releaseAck _ => (0, 0)
  | .mirWrite _ _ _ full _ mask _ => (1, if full then 8 else 1 + (slotsOf mask).length)
  | .mirRelease _ => (1, 0)
  | .mirFetch _ _ => (1, 0)
  | .mirAck _ => (2, 0)
  | .mirNak _ _ => (2, 0)
  | .mirData _ _ _ => (2, 8)
  | .mirLost _ _ => (2, 0)
  | .idle | .nak _ | .retrainReq | .init _ => (4, 0)

/-- The credits a bundle spends, by class: one of its class for each message and one DAT for each data slot (R365). -/
def bundleCost (ms : List Msg) : List Nat :=
  (List.range 4).map fun c =>
    ms.foldl (fun n x => n + bit (x.cost.1 == c) + (if c = 3 then x.cost.2 else 0)) 0
/-- The PAYLOAD flits a bundle takes: a header slot and its data slots, four slots a flit (R367, R368). -/
def bundleFlits (ms : List Msg) : Nat := (1 + ms.foldl (fun n x => n + x.cost.2) 0 + 3) / 4

/-- The header slot of a bundle: its one long header, or its short headers in units 0, 1, … and NOP (R367, R370). -/
def headerSlot : List Msg → Nat → BitVec 128
  | [], _ => 0
  | x :: rest, u => (x.header.1 <<< (32 * u)) ||| headerSlot rest (u + 1)
/-- The slots of a bundle, in stream order. -/
def bundleSlots (ms : List Msg) : List (BitVec 128) := headerSlot ms 0 :: ms.flatMap Msg.slots
/-- Four slots as the 512 bits of a flit, slots that are left over as NOP units (R369). -/
def packSlots (ss : List (BitVec 128)) : BitVec 512 := ss.getD 3 0 ++ ss.getD 2 0 ++ ss.getD 1 0 ++ ss.getD 0 0
/-- The `n` flits of a bundle, the messages in the last one. -/
def mkFlits (seq : Tag) (ms : List Msg) (ss : List (BitVec 128)) : Nat → List TxFlit
  | 0 => []
  | 1 => [⟨seq, ms, bundleCost ms, packSlots ss⟩]
  | n + 1 => ⟨seq, [], [0, 0, 0, 0], packSlots ss⟩ :: mkFlits (seq + 1) ms (ss.drop 4) n

/-! ### The 72 bytes of a flit (R323 to R325) -/

/-- The control field (Table 7.5).  Freed credits travel in the idle credit block only, so crd_class and crd_code are 0 (log entry 60). -/
def Flit.control (f : Flit) : BitVec 32 := (0 : BitVec 5) ++ f.ftype ++ f.ack ++ f.seq
/-- A flit as it is sent: bit 0 of byte 0 first. -/
def Flit.bits (f : Flit) : BitVec 576 :=
  let b : BitVec 544 := f.control ++ f.slots
  crc32 b 68 ++ b
/-- Four 12-bit values as Tables 7.8 and 7.9 place them in slot 0. -/
def creditBlock (ts : List Nat) : Nat := (List.range 4).foldl (fun n c => n + ts.getD c 0 % 4096 * 2 ^ (16 * c)) 0

/-- What the device advertises (Tables 7.11 and 11.1). -/
def advertised : Lnk → List Nat
  | .hpa | .hpb => [256, 128, 512, 512]
  | .mpa | .mpb => [0, 0, 512, 512]
  | .ckl => [16, 128, 256, 1152]
/-- The role that the device states in its INIT flits (Table 7.9). -/
def ownRole : Lnk → Nat
  | .ckl => 3
  | _ => 1

/-- A control flit of the port (Table 7.6): seq is that of the next new PAYLOAD flit and ack that of the last accepted one; slot 0 holds
the totals, or in INIT the advertisement, or in a resync the free buffers (Tables 7.8 and 7.9). -/
def controlFlit (l : Lnk) (x : LinkSt) (y : Msg) : Flit :=
  let (t, s) : Nat × Nat := match y with
    | .nak _ => (2, creditBlock x.rxTotals)
    | .retrainReq => (3, creditBlock x.rxTotals)
    | .init resync =>
      (4, creditBlock (if resync then x.rxFree else advertised l) + ownRole l * 2 ^ 60 + bit resync * 2 ^ 62)
    | _ => (0, creditBlock x.rxTotals)
  ⟨BitVec.ofNat 3 t, x.txSeq, x.rxExpected - 1, BitVec.ofNat 512 s⟩
/-- A PAYLOAD flit, new or replayed, with the current ack (R333, R340). -/
def payloadOut (x : LinkSt) (f : TxFlit) : Flit := ⟨1, f.seq, x.rxExpected - 1, f.slots⟩

end Sys2Proof.Machine
end

