-- ==== Sys2Proof/Machine/Ops.lean ====
section
/-!
DEFINITION. The named operations that the meanings share: how a command runs, the register file, time, the errata log and its
alerts, the rings and the events, the event counters, and the sending of messages.
-/

namespace Sys2Proof.Machine

open Sys2Proof

/-! ### How a command runs -/

/-- What a command reads but may not change. -/
structure Env where
  fuse : Fuses
  cfg : Cfg

/-- A command that changes nothing but `m`.  In manufacturing test the behaviour is outside the manual (R919). -/
def run (s : State) (f : Env → M → M) : Host.Outcome State Fault Refusal :=
  if s.m.pins.testSampled then .refused .manufacturingTest
  else .next { s with m := f ⟨s.fuse, s.cfg⟩ s.m }

/-- A command that may also change the settings. -/
def runCfg (s : State) (f : Fuses → Cfg → M → Cfg × M) : Host.Outcome State Fault Refusal :=
  if s.m.pins.testSampled then .refused .manufacturingTest
  else .next { s with cfg := (f s.fuse s.cfg s.m).1, m := (f s.fuse s.cfg s.m).2 }

/-- A command that acts even in manufacturing test: the resets, the straps, and the supplies (R919). -/
def runAlways (s : State) (f : Fuses → Cfg → M → Cfg × M) : Host.Outcome State Fault Refusal :=
  .next { s with cfg := (f s.fuse s.cfg s.m).1, m := (f s.fuse s.cfg s.m).2 }

/-! ### The register file -/

/-- The reset values of the stored registers that are not 0 (Tables 12.16, 15.5, 16.10, 19.4, R450). -/
def regReset (f : Fuses) (w : Nat) : Word :=
  if w = 0x4002 then 0xFFF
  else if w = 0x5004 then BitVec.ofNat 32 (50 + 10 * 2^10 + 25 * 2^18 + 2^25)
  else if w = 0x7000 then f.powerFuse.setWidth 32
  else if w = 0x7002 then 0x3E8
  else if w = 0x10001 || w = 0x11001 then 0x3080
  else if w = 0x12001 || w = 0x13001 then 0x2080
  else if w = 0xA001 then 0x1080
  else if 0x20000 ≤ w && w < 0x28000 && w % 0x1000 = 0x0C then 0x01515150
  else if 0x20000 ≤ w && w < 0x28000 && w % 0x1000 = 0x0D then 0x04DB1077
  else if 0x20000 ≤ w && w < 0x28000 && w % 0x1000 = 0x0E then 0x0120A138
  else if 0x20000 ≤ w && w < 0x28000 && w % 0x1000 = 0x0F then 0x180C0C08
  else if ((0x10000 ≤ w && w < 0x14000) || (0xA000 ≤ w && w < 0xB000))
      && 0x40 ≤ w % 0x1000 && w % 0x1000 < 0x100 && w % 8 = 0
      && (w < 0x12000 || w % 0x1000 < 0xC0) && (0x10000 ≤ w || w % 0x1000 < 0x80) then f.txeqDefault
  else 0

def rd (e : Env) (m : M) (w : Nat) : Word := Tab.get (regReset e.fuse) m.regs w
def wr (e : Env) (m : M) (w : Nat) (v : Word) : M := { m with regs := Tab.put (regReset e.fuse) m.regs w v }
/-- A saturating counter register. -/
def bump (e : Env) (m : M) (w n : Nat) : M := wr e m w (satAdd (rd e m w) n)
/-- A field of a word. -/
def fld (x : Word) (lo n : Nat) : Nat := x.toNat / 2 ^ lo % 2 ^ n
/-- A word with one field replaced. -/
def setFld (x : Word) (lo n v : Nat) : Word :=
  BitVec.ofNat 32 (x.toNat - fld x lo n * 2 ^ lo + v % 2 ^ n * 2 ^ lo)

/-! Word indices of the registers that operations touch (Tables 19.1 to 19.6). -/
def rJpcCtl : Nat := 3
def rStopEn : Nat := 8
def rFenceLo : Nat := 10
def rFenceHi : Nat := 11
def rEquiv : Nat := 13
def rQuoUser : Nat := 14
def rScratch : Nat := 19
def rAlert : Nat := 0x4001
def rAlertEn : Nat := 0x4002
def rPoison : Nat := 0x4005
def rClass : Nat := 0x4018
def rInkPolicy : Nat := 0x5004
def rCeilUnmet : Nat := 0x5002
def rUserGrant : Nat := 0x6003
def rSmpDrop : Nat := 0x6005
def rCeil : Nat := 0x7000
def rMemWinCtl : Nat := 0x7001
def rQuoinMax : Nat := 0x7002
def rGrdCnt : Nat := 0x7003
def rGrdLast : Nat := 0x7004
def rScope : Nat := 0xA081
def rMirNak : Nat := 0xA088
def rMirLost : Nat := 0xA08C
def rMirFetch : Nat := 0xA08D
def rLinkCfg (l : Lnk) : Nat := l.base + 1
/-- FEC_CORR, FEC_UNCORR, CRC_FAIL, REPLAY, RETRAIN, LINK_DOWN for k = 0 to 5 (Table 7.19). -/
def rLinkCnt (l : Lnk) (k : Nat) : Nat := l.base + 2 + k
def rViolCnt (l : Lnk) : Nat := l.base + 8
def rViolStat (l : Lnk) : Nat := l.base + 9
def rDac (d k : Nat) : Nat := 0x20000 + d * 0x1000 + k
def rSlc (x k : Nat) : Nat := 0x40000 + x * 0x1000 + k

/-! ### Parts of the state -/

def M.link (m : M) (l : Lnk) : LinkSt := Tab.get (fun _ => .reset) m.links l.n
def M.setLink (m : M) (l : Lnk) (x : LinkSt) : M := { m with links := Tab.put (fun _ => .reset) m.links l.n x }
def M.port (m : M) (p : HPort) : PortSt := Tab.get (fun _ => .reset) m.ports p.n
def M.setPort (m : M) (p : HPort) (x : PortSt) : M := { m with ports := Tab.put (fun _ => .reset) m.ports p.n x }
def M.mem (m : M) (p : MPort) : MemSt := Tab.get (fun _ => .reset) m.mems p.n
def M.setMem (m : M) (p : MPort) (x : MemSt) : M := { m with mems := Tab.put (fun _ => .reset) m.mems p.n x }
def M.dac (m : M) (d : Nat) : DacSt := Tab.get (fun _ => .reset) m.dacs d
def M.setDac (m : M) (d : Nat) (x : DacSt) : M := { m with dacs := Tab.put (fun _ => .reset) m.dacs d x }
def M.quoin (m : M) (q : Nat) : Quoin := Tab.get (fun _ => .free) m.quo q
def M.setQuoin (m : M) (q : Nat) (x : Quoin) : M := { m with quo := Tab.put (fun _ => .free) m.quo q x }
def M.setCoh (m : M) (f : Coh → Coh) : M := { m with coh := f m.coh }
def M.setTwin (m : M) (f : TwinSt → TwinSt) : M := { m with twin := f m.twin }
def M.setMir (m : M) (f : MirSt → MirSt) : M := { m with mir := f m.mir }
def M.setJpc (m : M) (f : JpcSt → JpcSt) : M := { m with jpc := f m.jpc }
def M.setErr (m : M) (f : ErrSt → ErrSt) : M := { m with err := f m.err }
def M.setInk (m : M) (f : InkSt → InkSt) : M := { m with ink := f m.ink }
def M.setPrf (m : M) (f : PrfSt → PrfSt) : M := { m with prf := f m.prf }
def M.setProof (m : M) (f : ProofSt → ProofSt) : M := { m with proof := f m.proof }
def M.setIsl (m : M) (f : IslSt → IslSt) : M := { m with isl := f m.isl }
def M.setBoot (m : M) (f : Boot → Boot) : M := { m with boot := f m.boot }
def M.setPins (m : M) (f : Pins → Pins) : M := { m with pins := f m.pins }
def M.setMode (m : M) (f : ModeSt → ModeSt) : M := { m with mode := f m.mode }
def M.setAcc (m : M) (f : AccSt → AccSt) : M := { m with acc := f m.acc }

def M.tagAt (m : M) (k : Nat) : TagEntry := Tab.get (fun _ => .empty) m.coh.tags k
def M.setTag (m : M) (k : Nat) (x : TagEntry) : M :=
  m.setCoh fun c => { c with tags := Tab.put (fun _ => .empty) c.tags k x }
def M.dirAt (m : M) (k : Nat) : DirEntry := Tab.get (fun _ => .empty) m.coh.dir k
def M.setDir (m : M) (k : Nat) (x : DirEntry) : M :=
  m.setCoh fun c => { c with dir := Tab.put (fun _ => .empty) c.dir k x }

/-- Whether the device runs at all: COLD_RST_N high, no trip and no boundary-scan hold (R879, R733, R936). -/
def M.alive (m : M) : Bool := m.pins.coldRstN && !m.pins.thermtrip && !m.pins.jtagHold
/-- `f` on a running device; a device held in reset takes nothing (R879). -/
def whenAlive (m : M) (f : M → M) : M := if m.alive then f m else m
/-- A wake cause of an island: no stop of the same AON tick stands against it (R79). -/
def noteWake (m : M) (i : Nat) : M := m.setIsl fun x => { x with wakeTick := Tab.put (fun _ => none) x.wakeTick i (some m.now) }
/-- Whether a wake cause of an island has arisen in this AON tick. -/
def M.wakeNow (m : M) (i : Nat) : Bool := Tab.get (fun _ => none) m.isl.wakeTick i == some m.now
def M.island (m : M) (i : Nat) : Bool := m.isl.run.getLsbD i && !m.isl.clkFail.getLsbD i

/-! ### Modes (Table 14.1, R687) -/

/-- SOLO follows the pair state; in HELLO and SHED it keeps the value of the state in which the attempt started (R687). -/
def soloOf : PairState → Bool
  | .unpaired | .adopted => true
  | _ => false
def TwinSt.solo (t : TwinSt) : Bool :=
  match t.st with
  | .hello | .shed => soloOf t.from_
  | x => soloOf x
def M.modeActive (m : M) : BitVec 12 := (m.mode.active &&& 0x7FF) ||| (if m.twin.solo then 0x800 else 0)
def M.modeBit (m : M) (n : Nat) : Bool := m.modeActive.getLsbD n
def mAllocate : Nat := 0
def mRetain : Nat := 1
def mMirror : Nat := 2
def mBroadcast : Nat := 3
def mFar : Nat := 4
def mInkCap : Nat := 5
def mPatrol : Nat := 6
def mProof : Nat := 7
def mDrain : Nat := 8
def mSample : Nat := 9
def mQuiesce : Nat := 10
/-- Whether the host ports hold new requests (R404, R696, R896). -/
def M.holding (m : M) : Bool := m.modeBit mQuiesce || m.boot.warm.isSome || m.mode.proofReleasing

/-- A transaction that waits for a galley entry (R288). -/
def Txn.galleyWait (t : Txn) : Bool := t.phase == .galley || t.phase == .ready

/-! ### Counters (R776 to R783) -/

/-- The counter group of an island's block: base word, slot and number of counters (R859); none for AON. -/
def ctrGroup (i : Nat) : Option (Nat × Nat × Nat) :=
  if i < 16 then some (rSlc i 0, 0x30, 10)
  else if i = 16 then some (0x8000, 0x08, 8)
  else if i < 21 then some (0x10000 + (i - 17) * 0x1000, 0x21, 8)
  else if i < 29 then some (0x20000 + (i - 21) * 0x1000, 0x10, 6)
  else if i = 29 then some (0xA000, 0x21, 6)
  else if i = 30 then some (0x9000, 0x01, 4)
  else none
def M.ctr (m : M) (i k : Nat) : BitVec 48 := Tab.get (fun _ => 0) m.ctrs (i * 16 + k)
def M.setCtr (m : M) (i k : Nat) (v : BitVec 48) : M := { m with ctrs := Tab.put (fun _ => 0) m.ctrs (i * 16 + k) v }
/-- Adds to one counter; passing its top wraps it and sets its overflow bit (R776). -/
def addCtr (e : Env) (m : M) (i k n : Nat) : M :=
  match ctrGroup i with
  | none => m
  | some (b, p, kk) =>
    let t := (m.ctr i k).toNat + n
    let m := m.setCtr i k (BitVec.ofNat 48 t)
    if 2 ^ 48 ≤ t then wr e m (b + p + 3 * kk) (rd e m (b + p + 3 * kk) ||| ((1 : Word) <<< k)) else m
/-- Whether counter `k` of a block counts this event (R777, R779, R780). -/
def counts (ctl : Word) (code : Nat) (agent : Option Agent) : Bool :=
  ctl.getLsbD 23 && fld ctl 0 16 = code &&
    match agent with
    | some a => !ctl.getLsbD 22 || fld ctl 16 6 = a.toNat
    | none => true
/-- The mirror events, which count 0 outside PAIRED (chapter 17, "Events"). -/
def mirrorEvent (i code : Nat) : Bool :=
  (i < 16 && 0x13 ≤ code && code ≤ 0x15) || (i = 29 && 4 ≤ code && code ≤ 7)
/-- Counts `n` occurrences of an event in the block of island `i`. -/
def count (e : Env) (m : M) (i code n : Nat) (agent : Option Agent) : M :=
  match ctrGroup i with
  | none => m
  | some (b, p, kk) =>
    if m.island i && !(mirrorEvent i code && m.twin.st != .paired) then
      (List.range (min kk 8)).foldl (fun a k => if counts (rd e a (b + p + k)) code agent then addCtr e a i k n else a) m
    else m
/-- A tag lookup of any origin (R778). -/
def countLookup (e : Env) (m : M) (x : Nat) : M := if m.island x then addCtr e m x 9 1 else m
/-- The tag lookups of patrol, of proof and of a sweep in one slice (R778), whose number is open (log entry 34). -/
def openLookups (e : Env) (m : M) (x : Nat) : M :=
  if m.island x then addCtr e { m with free := m.free + 1 } x 9 (Config.activity m.free) else m
/-- A sweep of every tag bank. -/
def sweepLookups (e : Env) (m : M) : M := (List.range 16).foldl (openLookups e) m

/-- The quantity that a per-cycle event adds in each cycle (Tables 17.3 to 17.5, "summed each cycle"). -/
def cycleQty (m : M) (i code : Nat) : Nat :=
  let stalled (l : Lnk) : Bool := (m.link l).st == .active && !(m.link l).txq.isEmpty
  if i < 16 then
    if code = 0x0F then (m.coh.galley.filter fun g => sliceOf g.line = i).length
    else if code = 0x10 then bit (m.coh.txns.any fun t => t.galleyWait && sliceOf t.req.line == i)
    else if code = 0x11 then (m.coh.txns.filter fun t => sliceOf t.req.line = i).length
    else 0
  else if i = 17 ∨ i = 18 then
    let p := m.port (if i = 17 then .hpa else .hpb)
    if code = 0x09 then bit (stalled (if i = 17 then .hpa else .hpb))
    else if code = 0x0A then p.hold.length
    else if code = 0x0C then p.epochs.foldl (fun n kv => n + kv.2.barriers.length) 0
    else 0
  else if i = 19 ∨ i = 20 then
    if code = 0x09 then bit (stalled (if i = 19 then .mpa else .mpb))
    else if code = 0x0D then (m.mem (if i = 19 then .mpa else .mpb)).outstanding.length else 0
  else if i = 29 then (if code = 8 then bit (stalled .ckl) else 0)
  else if i = 30 then (if code = 1 then 1 else 0)
  else 0
/-- The events that no command of the block reports, whose number the time that passes leaves open (log entry 34): IDLE flits sent,
issues and stalls of the XBR, ACT commands and queues of a channel, instructions and RAM stalls of the JPC (Tables 17.4 and 17.5). -/
def openEvent (i code : Nat) : Bool :=
  if i = 16 then decide (1 ≤ code) && decide (code ≤ 4)
  else if 17 ≤ i && i ≤ 20 then code = 3
  else if 21 ≤ i && i ≤ 28 then code = 3 || code = 7
  else if i = 30 then code = 2 || code = 5
  else false
/-- Cycles of a slice in an AON tick: 2.2 GHz, or half of it (R65). -/
def sliceRate (m : M) (x : Nat) : Nat := if m.isl.div2.getLsbD x then 22 else 44
/-- Clock cycles of an island from tick `t` to tick `u` (Tables 2.1 and 10.3): a slice at 2.2 or 1.1 GHz, the XBR at 2.2 GHz, the JPC
at 1 GHz, a DAC at a quarter of its data rate, and a port or the CKL at 1.66015625 GHz, which is 2,125 cycles in 64 ticks.  A tick holds the
nominal number also while the AON clock runs from its internal oscillator (R110; log entry 26). -/
def cyclesBetween (e : Env) (m : M) (i t u : Nat) : Nat :=
  if i < 16 then sliceRate m i * (u - t)
  else if i = 16 then 44 * (u - t)
  else if i = 30 then 20 * (u - t)
  else if 21 ≤ i && i < 29 then (24 + 2 * fld (rd e m (rDac (i - 21) 0xC)) 0 3) * (u - t)
  else u * 2125 / 64 - t * 2125 / 64
/-- Time passes: `n` AON ticks.  Slice counter 8 counts every cycle (R778), and so do the per-cycle events. -/
def elapse (e : Env) (m : M) (n : Nat) : M :=
  if n = 0 then m
  else
    let m := (List.range 31).foldl (fun a i =>
      if a.island i then
        let c := cyclesBetween e a i a.now (a.now + n)
        let a := if i < 16 then addCtr e a i 8 c else a
        match ctrGroup i with
        | none => a
        | some (b, p, kk) =>
          (List.range (min kk 8)).foldl (fun a k =>
            let ctl := rd e a (b + p + k)
            let q := cycleQty a i (fld ctl 0 16)
            if !ctl.getLsbD 23 then a
            else if openEvent i (fld ctl 0 16) then addCtr e { a with free := a.free + 1 } i k (Config.activity a.free)
            else if q != 0 then addCtr e a i k (q * c) else a) a
      else a) m
    { m with now := m.now + n, dacs := Tab.mapVals (fun _ => .reset) (fun _ d => { d with corrections := [] }) m.dacs }
/-- Time passes until tick `t`, if it is not past already. -/
def elapseTo (e : Env) (m : M) (t : Nat) : M := elapse e m (t - m.now)

/-! ### Rings (R562 to R568) -/

/-- The depth of a ring (Table 12.1); 0 for the counter pairs. -/
def ringDepth (r : Nat) : Nat :=
  match r with
  | 0 | 2 | 5 | 7 => 64
  | 1 | 6 | 10 | 11 | 13 | 14 | 20 | 38 | 39 => 16
  | 3 | 8 | 18 | 21 => 256
  | 4 | 9 => 8192
  | 12 | 19 => 64
  | 17 => 1024
  | 15 | 16 => 0
  | _ => if r ≤ 37 then 64 else 0
/-- Words in an entry of a ring (Table 12.1). -/
def ringWords (r : Nat) : Nat := if r = 4 || r = 9 then 8 else 16
/-- A ring of an absent unit (R13). -/
def ringAbsent (v : Variant) (r : Nat) : Bool :=
  (!v.ckl && (13 ≤ r && r ≤ 16)) || (!v.sample && (r = 4 || r = 9))
def M.head (m : M) (r : Nat) : BitVec 16 := Tab.get (fun _ => 0) m.jpc.heads r
def M.tail (m : M) (r : Nat) : BitVec 16 := Tab.get (fun _ => 0) m.jpc.tails r
def M.setHead (m : M) (r : Nat) (x : BitVec 16) : M := m.setJpc fun j => { j with heads := Tab.put (fun _ => 0) j.heads r x }
def M.setTail (m : M) (r : Nat) (x : BitVec 16) : M := m.setJpc fun j => { j with tails := Tab.put (fun _ => 0) j.tails r x }
/-- Entries held, indices counting modulo twice the depth (R563). -/
def M.ringUsed (m : M) (r : Nat) : Nat :=
  if ringDepth r = 0 then 0 else ((m.tail r).toNat + 2 * ringDepth r - (m.head r).toNat) % (2 * ringDepth r)
def M.ringFree (m : M) (r : Nat) : Nat := ringDepth r - m.ringUsed r
/-- Writes one word of ring storage (R569). -/
def M.putRing (m : M) (r k : Nat) (v : Word) : M :=
  m.setJpc fun j => { j with store := Tab.put (fun _ => 0) j.store (r * 65536 + k) v }
def M.getRing (m : M) (r k : Nat) : Word := Tab.get (fun _ => 0) m.jpc.store (r * 65536 + k)
/-- Appends an entry at the tail, or counts it as dropped when the ring is full (R564, R568). -/
def pushRing (v : Variant) (m : M) (r : Nat) (entry : BitVec 512) : M :=
  if ringAbsent v r || ringDepth r = 0 then m
  else if m.ringFree r = 0 then
    m.setJpc fun j => { j with ringDrops := Tab.upd (fun _ => 0) j.ringDrops r (· + 1) }
  else
    let slot := (m.tail r).toNat % ringDepth r
    let m' := (List.range (ringWords r)).foldl
      (fun a i => a.putRing r (slot * ringWords r + i) (entry.extractLsb' (32 * i) 32)) m
    m'.setTail r (BitVec.ofNat 16 (((m.tail r).toNat + 1) % (2 * ringDepth r)))

/-! ### Events (Tables 12.6 and 12.7) -/

/-- An event entry; `payload` is bytes 20 to 63. -/
def evtEntry (code tag : BitVec 16) (status source : BitVec 8) (seq : BitVec 16) (time : Nat) (opcode : BitVec 16)
    (ring : BitVec 8) (payload : BitVec 352) : BitVec 512 :=
  payload ++ (0 : BitVec 8) ++ ring ++ opcode ++ BitVec.ofNat 64 time ++ seq ++ source ++ status ++ tag ++ code

/-- Puts one event on one EVT ring, or counts it as dropped when fewer than two slots are free (R583, R586). -/
def postRing (v : Variant) (m : M) (r : Nat) (code tag : BitVec 16) (status source : BitVec 8) (opcode : BitVec 16)
    (ring : BitVec 8) (payload : BitVec 352) : M :=
  if m.ringFree r < 2 then
    m.setJpc fun j => { j with evtDrops := Tab.upd (fun _ => 0) j.evtDrops r (· + 1) }
  else
    let seq := Tab.get (fun _ => 0) m.jpc.evtSeq r
    let m' := pushRing v m r (evtEntry code tag status source seq m.now opcode ring payload)
    m'.setJpc fun j => { j with evtSeq := Tab.put (fun _ => 0) j.evtSeq r (seq + 1) }

/-- Posts one event on one ring; an event of the firmware is counted (Table 17.5). -/
def postOn (e : Env) (m : M) (r : Nat) (code tag : BitVec 16) (status source : BitVec 8) (opcode : BitVec 16)
    (ring : BitVec 8) (payload : BitVec 352) : M :=
  let m := if source = 1 ∧ 2 ≤ m.ringFree r then count e m 30 4 1 none else m
  postRing e.fuse.variant m r code tag status source opcode ring payload

/-- Posts an event on HPA_EVT, HPB_EVT and EVTS (R584). -/
def postEvt (e : Env) (m : M) (code : BitVec 16) (source : BitVec 8) (payload : BitVec 352) : M :=
  let m := if source = 1 ∧ (2 ≤ m.ringFree 3 ∨ 2 ≤ m.ringFree 8 ∨ 2 ≤ m.ringFree 12) then count e m 30 4 1 none else m
  [3, 8, 12].foldl (fun a r => postRing e.fuse.variant a r code 0 0 source 0 0 payload) m

/-! ### The errata log (R766 to R772) -/

/-- Severity and alert of an entry code (Tables 16.8 and 20.4). -/
def logInfo (code : Nat) : Nat × Bool :=
  match code with
  | 0x0001 | 0x0002 => (3, true)
  | 0x0003 => (2, false)
  | 0x0004 => (4, true)
  | 0x0005 => (1, false)
  | 0x0006 => (4, true)
  | 0x0101 | 0x0102 => (2, false)
  | 0x0201 | 0x0202 | 0x0203 => (3, true)
  | 0x0204 => (2, false)
  | 0x0205 => (3, true)
  | 0x0301 | 0x0302 | 0x0303 => (3, true)
  | 0x0304 => (1, false)
  | 0x0401 => (1, false)
  | 0x0402 | 0x0403 | 0x0404 => (3, true)
  | 0x0405 => (2, false)
  | 0x0406 => (0, false)
  | 0x0407 => (2, false)
  | 0x0501 => (1, false)
  | 0x0502 | 0x0503 => (3, true)
  | 0x0504 => (4, true)
  | 0x0601 => (1, false)
  | 0x0602 | 0x0603 => (2, false)
  | 0x0604 | 0x0605 | 0x0606 | 0x0607 => (3, true)
  | 0x0608 => (1, false)
  | 0x0609 | 0x060A | 0x060B => (3, true)
  | 0x060C => (4, true)
  | 0x060D => (2, false)
  | 0x0701 => (2, false)
  | 0x0702 | 0x0703 => (3, true)
  | 0x0704 | 0x0705 => (2, false)
  | 0x0801 | 0x0802 => (3, true)
  | 0x0803 => (2, true)
  | 0x0804 => (3, true)
  | 0x0805 => (4, true)
  | 0x0901 => (3, true)
  | 0x0902 | 0x0903 => (0, false)
  | 0x0904 => (2, false)
  | 0x0A01 => (4, true)
  | 0x0A02 => (1, false)
  | _ => (0, false)

/-- The 32 bytes of an entry (Table 16.7). -/
def LogEntry.bits (e : LogEntry) : BitVec 256 :=
  e.a2 ++ e.a1 ++ e.a0 ++ BitVec.ofNat 16 (min e.repeats 0xFFFF)
    ++ (BitVec.ofNat 8 (bit e.copied + 2 * bit e.coalesced)) ++ e.src ++ e.code.extractLsb' 8 8
    ++ e.sev ++ e.code ++ BitVec.ofNat 64 e.time

/-- Puts an entry into the slip: entries 1 to 7 while entry 0 is LOG_DEGRADED, otherwise all eight (R769, R770). -/
def slipPut (m : M) (x : LogEntry) : M :=
  m.setErr fun r =>
    if r.degraded then { r with slip := (x :: r.slip).take 7 } else { r with slip := (x :: r.slip).take 8 }

/-- The newest entry of a code that a repeat may join (R767). -/
def coalesces (code : Nat) : Bool := code = 0x0401 || code = 0x0501 || code = 0x0102

/-- Raises the repeat count of the newest entry of a code. -/
def bumpRepeat (code : BitVec 16) : List (Word × LogEntry) → List (Word × LogEntry)
  | [] => []
  | (i, x) :: t =>
    if x.code = code then (i, { x with repeats := x.repeats + 1, coalesced := true }) :: t
    else (i, x) :: bumpRepeat code t

/-- Whether LOG_POLICY forwards an entry as LOG_NOTICE (R768). -/
def noticed (e : Env) (sev cls : Nat) : Bool := decide (e.cfg.logSeverity.toNat ≤ sev) && e.cfg.logClasses.getLsbD cls
/-- The firmware takes the oldest entry of the LOG ring. -/
def takeLog (e : Env) (m : M) : M :=
  let slot := (m.head 17).toNat % 1024
  let x : BitVec 256 := (List.range 8).foldl (fun x i => x ||| ((m.getRing 17 (slot * 16 + i)).setWidth 256 <<< (32 * i))) 0
  let m := m.setHead 17 (BitVec.ofNat 16 (((m.head 17).toNat + 1) % 2048))
  if noticed e (x.extractLsb' 80 8).toNat (x.extractLsb' 88 8).toNat then postEvt e m 0x0030 1 (x.setWidth 352) else m

/-- The alert, class count, LOG ring and LOG_NOTICE that every entry brings (R568, R768, R772, Table 19.3).  A firmware that runs
takes the entry from its ring at once; otherwise the entry stays there (Table 12.11). -/
def logAfter (e : Env) (m : M) (x : LogEntry) (index : Word) : M :=
  let cls := (x.code.extractLsb' 8 8).toNat
  let m := if (logInfo x.code.toNat).2 then wr e m rAlert (rd e m rAlert ||| ((1 : Word) <<< cls)) else m
  let drops := Tab.get (fun _ => 0) m.jpc.ringDrops 17
  let room := m.ringFree 17 ≠ 0
  let m := pushRing e.fuse.variant m 17 ((0 : BitVec 192) ++ BitVec.ofNat 32 drops ++ index ++ x.bits)
  let m := if room then m.setJpc fun j => { j with ringDrops := Tab.put (fun _ => 0) j.ringDrops 17 0 } else m
  if m.jpc.fw = .running then takeLog e m else m

/-- An entry takes the next index of the errata log; the oldest of 32,768 is overwritten (R766). -/
def logPut (e : Env) (m : M) (x : LogEntry) : M :=
  let index := m.err.next
  let m := m.setErr fun r =>
    { r with log := ((index, x) :: r.log).take 32768, next := r.next + 1,
             oldest := if 32768 ≤ r.log.length then r.oldest + 1 else r.oldest }
  logAfter e m x index

/-- Writes one entry (R766); `flags` bit 0 marks an entry that also goes to the slip (R769).  An entry written while the log is degraded
goes to the slip and takes its index in the log as well (R670, R771; log entry 66). -/
def logRaw (e : Env) (m : M) (code : Nat) (src : Nat) (a0 a1 : Word) (a2 : BitVec 64) : M :=
  let c := BitVec.ofNat 16 code
  let cls := code / 256
  let m := bump e m (rClass + cls) 1
  let joins := coalesces code && match m.err.log.find? fun x => x.2.code = c with
    | some x => x.2.src = BitVec.ofNat 8 src && x.2.a0 = a0 && decide (m.now < x.2.time + 50000)
    | none => false
  if joins then m.setErr fun r => { r with log := bumpRepeat c r.log }
  else
    let sev := (logInfo code).1
    let slip := sev = 4 || code = 0x0805 || m.err.degraded
    let x : LogEntry := ⟨m.now, c, BitVec.ofNat 8 sev, BitVec.ofNat 8 src, slip, false, 1, a0, a1, a2⟩
    logPut e (if slip then slipPut m x else m) x

/-- Bits set in a mask. -/
def popCount {w : Nat} (x : BitVec w) : Nat := (List.range w).foldl (fun n i => n + bit (x.getLsbD i)) 0

/-- What the SEC-DED code makes of a flip of some bits of one word (R485, R947): 0 nothing seen, 1 corrected, 2 uncorrectable. -/
def secded (free : Nat) (mask : BitVec 72) : Nat :=
  let n := popCount mask
  if n = 0 then 0 else if n = 1 then 1 else if n = 2 then 2
  else if n % 2 = 1 then 1 + Config.secdedChoice free % 2 else if Config.secdedChoice free % 2 = 0 then 0 else 2

/-- The log degrades: the failing word is named in slip entry 0 and the entry is copied (R770). -/
def degradeLog (e : Env) (m : M) (word : Nat) (copy : Option LogEntry) : M :=
  let d : LogEntry := ⟨m.now, 0x0A01, 4, 31, true, false, 1, 0, BitVec.ofNat 32 word, 0⟩
  let m := m.setErr fun r => { r with degraded := true, slip0 := some d, slip := r.slip.take 7 }
  let m := match copy with
    | some x => slipPut m { x with copied := true }
    | none => m
  let m := bump e m (rClass + 10) 1
  let m := logPut e m d
  logRaw e m 0x0502 31 9 0 (BitVec.ofNat 64 word)

/-- Writes an entry and reads it back (R766); a frisket on the errata log strikes here (R489, R868). -/
def log (e : Env) (m : M) (code : Nat) (src : Nat) (a0 a1 : Word) (a2 : BitVec 64) : M :=
  let f := m.err.frisket
  let slot := m.err.next.toNat % 32768
  let before := m.err.log.length
  let m' := logRaw e m code src a0 a1 a2
  let written := m'.err.next ≠ m.err.next ∨ m'.err.log.length ≠ before
  let hit := !f.matchEn || f.matchAddr.toNat / 4 = slot
  if f.armed && hit && decide written then
    let word := if f.matchEn then f.matchAddr.toNat else slot * 4
    let index := m.err.next
    let entry := (m'.err.log.head?).map (·.2)
    let m' := m'.setErr fun r => { r with frisket := { f with armed := false } }
    let m' := { m' with free := m'.free + 1 }
    let m' := logRaw e m' 0x0406 31 4 0 (BitVec.ofNat 64 word)
    match secded m.free f.mask with
    | 1 => logRaw e m' 0x0501 31 9 0 (BitVec.ofNat 64 word)
    | 2 => degradeLog e (m'.setErr fun r => { r with bad := (index, word % 4) :: r.bad }) word entry
    | _ => m'
  else m'

/-- ALERT_N is asserted while an enabled bit of ERR_ALERT is set (R772). -/
def alertN (e : Env) (m : M) : Bool := (rd e m rAlert &&& rd e m rAlertEn) == 0

/-- An AGENT_FENCED or PORT_FENCED event, with the fence bit of ERR_ALERT (R212, R435, R772). -/
def fenceEvent (e : Env) (m : M) (code : BitVec 16) (who : Nat) : M :=
  let m := wr e m rAlert (rd e m rAlert ||| 0x800)
  postEvt e m code 0 (BitVec.ofNat 352 who)

/-- A guard blocks an action of the firmware (R607). -/
def guardBlock (e : Env) (m : M) (code whre : Nat) : M :=
  let m := bump e m rGrdCnt 1
  let m := wr e m rGrdLast (BitVec.ofNat 32 (code + 16 * whre))
  log e m 0x0703 30 (BitVec.ofNat 32 code) (BitVec.ofNat 32 whre) 0

/-- A line the device records poisoned itself (R761). -/
def poisonCount (e : Env) (m : M) : M := bump e m rPoison 1

/-! ### Sending (R343, R365, chapter 7) -/

def listSub (a b : List Nat) : List Nat := List.zipWith (· - ·) a b
def listAdd (a b : List Nat) : List Nat := List.zipWith (· + ·) a b
def listLe (a b : List Nat) : Bool := (List.zipWith (fun x y => decide (x ≤ y)) a b).all id

/-- Whether the link may send a bundle now: ACTIVE, credits for all of it, and room in the replay buffer (R343, R335). -/
def LinkSt.canSend (x : LinkSt) (ms : List Msg) : Bool :=
  x.st == .active && listLe (bundleCost ms) x.avail && decide (x.replay.length + bundleFlits ms ≤ 1024)

/-- Marks what times an answer from the moment the last bit of a message has left: a snoop (R209), a grant and the slot it arms
(R198, R260), a memory request (R413). -/
def noteLeft (m : M) (l : Lnk) (x : Msg) : M :=
  let at_ (t : Option Nat) : Option Nat := if t.isNone then some m.now else t
  match l.host, l.mem, x with
  | some p, _, .snp _ tag _ _ _ =>
    m.setCoh fun c => { c with txns := c.txns.map fun t => { t with snoops := t.snoops.map fun s =>
      if s.port == p && s.tag == tag then { s with sent := at_ s.sent } else s } }
  | some p, _, .grant _ tag =>
    let mine (t : Txn) : Bool := t.phase == .granted && t.req.port == p && t.req.tag == tag
    m.setCoh fun c => { c with
      txns := c.txns.map fun t => if mine t then { t with sent := at_ t.sent } else t
      rsv := Tab.mapVals (fun _ => .empty) (fun _ y =>
        if c.txns.any fun t => mine t && t.req.op == .rsvLd && t.req.agent == y.agent && t.req.line == y.line then
          { y with sent := at_ y.sent }
        else y) c.rsv }
  | _, some p, .memRd tag _ | _, some p, .memWr tag _ _ _ _ _ =>
    m.setMem p { m.mem p with outstanding := (m.mem p).outstanding.map fun r =>
      if r.tag == tag then { r with sent := at_ r.sent } else r }
  | _, _, _ => m
/-- The tick at which a message handed to a link has left: now, unless it waits in the link's queue. -/
def leftAt (m : M) (l : Lnk) : Option Nat := if (m.link l).txq.isEmpty then some m.now else none

/-- Whether the device's transmitters run (Table 2.7, R765). -/
def M.txOn (m : M) : Bool := m.alive && !m.boot.txStopped

/-- A control flit (NAK, IDLE, RETRAIN_REQ, INIT) that the port sends of its own accord; it spends no credit and ends a run of PAYLOAD
flits (R328). -/
def control (m : M) (l : Lnk) (x : Msg) : M :=
  if m.txOn then
    { m.setLink l { m.link l with txRun := 0 } with out := m.out ++ [(l, x)], flits := m.flits ++ [(l, controlFlit l (m.link l) x)] }
  else m
/-- One PAYLOAD flit leaves, new or replayed, after an IDLE where 256 of them have left in a row (R328). -/
def emit (l : Lnk) (m : M) (f : TxFlit) : M :=
  let m := if (m.link l).txRun < 256 then m else control m l .idle
  { m.setLink l { m.link l with txRun := (m.link l).txRun + 1 } with flits := m.flits ++ [(l, payloadOut (m.link l) f)] }

/-- First sending of a bundle: credits spent, flits numbered and kept for replay (R334, R343). -/
def transmit (e : Env) (m : M) (l : Lnk) (ms : List Msg) : M :=
  let x := m.link l
  let n := bundleFlits ms
  let fs := mkFlits x.txSeq ms (bundleSlots ms) n
  let m := m.setLink l { x with
    avail := listSub x.avail (bundleCost ms)
    replay := x.replay ++ fs
    txSeq := x.txSeq + BitVec.ofNat 12 n
    ackTick := if x.replay.isEmpty then m.now else x.ackTick }
  let m := fs.foldl (emit l) (count e m l.island 1 n none)
  let m := ms.foldl (fun m x => noteLeft m l x) m
  { m with out := m.out ++ ms.map (fun y => (l, y)) }

/-- Sends a bundle in consecutive units, or queues it behind earlier ones (R370, R343).  On a link that is neither ACTIVE nor in
RETRAIN nothing is sent (R410, R412). -/
def send (e : Env) (m : M) (l : Lnk) (ms : List Msg) : M :=
  let x := m.link l
  if !m.txOn then m
  else if x.st == .active || x.st == .retrain then
    if x.txq.isEmpty && x.canSend ms then transmit e m l ms
    else m.setLink l { x with txq := x.txq ++ [ms] }
  else m

/-- Sends what waits, oldest first, as far as credits go. -/
def flushTx (e : Env) (l : Lnk) : Nat → M → M
  | 0, m => m
  | n + 1, m =>
    match (m.link l).txq with
    | [] => m
    | ms :: rest =>
      if m.txOn && (m.link l).canSend ms then
        flushTx e l n (transmit e (m.setLink l { m.link l with txq := rest }) l ms)
      else m

/-! ### Fences (R211, R423) -/

def fenceReg (a : Agent) : Nat := if a.getLsbD 5 then rFenceHi else rFenceLo
def agentFenced (e : Env) (m : M) (a : Agent) : Bool := (rd e m (fenceReg a)).getLsbD (a.toNat % 32)
def linkFenced (e : Env) (m : M) (l : Lnk) : Bool := (rd e m (rViolStat l)).getLsbD 14
def holdDown (e : Env) (m : M) (l : Lnk) : Bool := (rd e m (rLinkCfg l)).getLsbD 14
/-- The PRBS checks of a link's lanes that run end now (R874). -/
def endPrbs (e : Env) (m : M) (l : Lnk) (ks : List Nat) : M :=
  ks.foldl (fun m k =>
    let w := l.base + 0x46 + 8 * k
    if (rd e m w).getLsbD 1 then m.setAcc fun a => { a with prbsEnd := Tab.put (fun _ => 0) a.prbsEnd w m.now } else m) m
/-- Writes hold_down; when it clears, the PRBS controls of every lane clear (R874). -/
def setHoldDown (e : Env) (m : M) (l : Lnk) (b : Bool) : M :=
  let m := if holdDown e m l && !b then
      (List.range l.lanes).foldl (fun m k => wr e m (l.base + 0x46 + 8 * k) 0) (endPrbs e m l (List.range l.lanes))
    else m
  wr e m (rLinkCfg l) (setFld (rd e m (rLinkCfg l)) 14 1 (bit b))
/-- The 64 fence bits, agent n at bit n (Table 4.6). -/
def fenceMask (e : Env) (m : M) : BitVec 64 := rd e m rFenceHi ++ rd e m rFenceLo

/-- Records a violation on its link: the log entry, the last-violation register, the count and the ticks kept (R421, R423).  At the
rate of R433 the link joins those that the command fences when it has given its answer.  `entry` is false where another entry
stands for PARTNER_VIOLATION (R422). -/
def violate (e : Env) (m : M) (l : Lnk) (code : Nat) (agent : Option Agent) (tag : Tag) (opcode : Nat)
    (counted entry : Bool) : M :=
  let quiet := linkFenced e m l ||
    match agent with
    | some a => l.host.isSome && agentFenced e m a
    | none => false
  let a := agent.getD 0
  let m := if quiet then m
    else
      let m := if entry then
          log e m 0x0101 l.n (BitVec.ofNat 32 code) (a.setWidth 32) (BitVec.ofNat 64 (tag.toNat + opcode * 65536))
        else m
      wr e m (rViolStat l) (BitVec.ofNat 32 (code + a.toNat * 256 + bit (linkFenced e m l) * 16384 + tag.toNat * 65536))
  if !counted then m
  else
    let m := bump e m (rViolCnt l) 1
    let x := m.link l
    let tooMany := match x.violTicks.drop 15 with
      | t :: _ => decide (m.now < t + 50000)
      | [] => false
    let m := m.setLink l { x with violTicks := (m.now :: x.violTicks).take 16 }
    if tooMany && !linkFenced e m l then { m with fences := m.fences ++ [l] } else m

end Sys2Proof.Machine
end

