-- ==== Sys2Proof/Machine/Mail.lean ====
section
/-!
DEFINITION. Mailbox commands: the fields of a descriptor, the checks every command passes, responses, and the final status of a
command that ends later.
-/

namespace Sys2Proof.Machine

open Sys2Proof

/-! ### Descriptors (Tables 12.3 and 13.1) -/

/-- Whether every argument byte outside the named spans (first byte, count) is 0 (R575, R611). -/
def descOnly (d : Desc) (spans : List (Nat × Nat)) : Bool :=
  (List.range 56).all fun i =>
    d.args.extractLsb' (8 * i) 8 == 0 || spans.any fun s => decide (s.1 ≤ i + 8) && decide (i + 8 < s.1 + s.2)
/-- A result value placed at response byte `k` (R611). -/
def resAt (k v : Nat) : BitVec 448 := BitVec.ofNat 448 (v * 2 ^ (8 * (k - 8)))

/-- The ring that takes the responses of a CMD ring (Table 12.1, R579); none for a ring that carries no commands. -/
def rspRing (r : Nat) : Option Nat :=
  match r with
  | 0 | 1 => some 2
  | 5 | 6 => some 7
  | 10 => some 11
  | 38 => some 39
  | _ => none
/-- The EVT ring of a CMD ring (R581); DBG_IN has none. -/
def evtRing (r : Nat) : Option Nat :=
  match r with
  | 0 | 1 => some 3
  | 5 | 6 => some 8
  | 10 => some 12
  | _ => none

/-- The slot that the ring's oldest entry lies in. -/
def headSlot (m : M) (r : Nat) : Nat := if ringDepth r = 0 then 0 else (m.head r).toNat % ringDepth r
/-- Whether a slot was written, or its doorbell rung, without privilege (R574). -/
def unprivAt (m : M) (r slot : Nat) : Bool := Tab.get (fun _ => false) m.jpc.unprivSlots (r * 65536 + slot)
def setUnpriv (m : M) (r slot : Nat) (b : Bool) : M :=
  m.setJpc fun j => { j with unprivSlots := Tab.put (fun _ => false) j.unprivSlots (r * 65536 + slot) b }
/-- The privilege a descriptor is judged with (R574). -/
def privileged (m : M) (d : Desc) : Bool :=
  d.ring.val == 10 || d.ring.val == 38 || (d.priv && !(decide (m.ringUsed d.ring ≠ 0) && unprivAt m d.ring (headSlot m d.ring)))

/-! ### The order of the rings (R578) -/

/-- The CMD rings of a priority class, in index order (R578). -/
def classRings (hi : Bool) : List Nat := if hi then [1, 6] else [0, 5, 10, 38]
/-- The commands that the firmware serves before READY (R894). -/
def earlyOpcodes : List Nat := [0x0100, 0x0101, 0x0102, 0x0202, 0x0500, 0x0601, 0x0A00]
/-- Whether a CMD ring holds a command that the firmware could take now: the ring is neither empty nor blocked (R579), RECOVERY serves it
(R593), and before READY its oldest command is one of R894 (log entry 132). -/
def ringReady (m : M) (r : Nat) : Bool :=
  let word (k : Nat) : Word := m.getRing r (headSlot m r * 16 + k)
  decide (m.ringUsed r ≠ 0)
  && (match m.jpc.fw with
    | .running => (m.boot.phase == 8 && m.boot.warm.isNone) || earlyOpcodes.contains ((word 0).extractLsb' 0 16).toNat
    | .recovery => r == 10 || r == 38
    | _ => false)
  && (match rspRing r with
    | some q => decide (m.ringFree q ≠ 0) && (q != 39 || m.jpc.dbgWait.isEmpty)
    | none => false)
  && !((word 1).getLsbD 0 && m.jpc.accepted.any fun a => a.ring.val == r)
/-- The ring from which a class looks for its next command. -/
def JpcSt.turn (j : JpcSt) (hi : Bool) : Nat := if hi then j.turn1 else j.turn0
/-- Whether a ring has its turn: no ring of class 1 is ready when it is of class 0, and none of its own class comes before it in turn,
counted from where the class stands (R578). -/
def inTurn (m : M) (r : Nat) : Bool :=
  let hi := (classRings true).contains r
  let place (q : Nat) : Nat := (q + 40 - m.jpc.turn hi) % 40
  (hi || !((classRings true).any (ringReady m)))
    && !((classRings hi).any fun q => decide (place q < place r) && ringReady m q)
/-- The turn of a class goes on behind the ring that was served. -/
def passTurn (m : M) (r : Nat) : M :=
  m.setJpc fun j => if (classRings true).contains r then { j with turn1 := r + 1 } else { j with turn0 := r + 1 }

/-- The firmware takes the oldest descriptor of a ring. -/
def takeDesc (m : M) (d : Desc) : M :=
  let m := passTurn m d.ring
  if m.ringUsed d.ring = 0 then m
  else
    (setUnpriv m d.ring (headSlot m d.ring) false).setHead d.ring
      (BitVec.ofNat 16 (((m.head d.ring).toNat + 1) % (2 * ringDepth d.ring)))

/-! ### Entries that their consumer takes at once (R562, R567, R774) -/

/-- An entry is posted on an empty ring and taken at once: its words are in the storage, and the tail and the head have moved on. -/
def passRing (m : M) (r : Nat) (entry : BitVec 512) : M :=
  let slot := (m.tail r).toNat % ringDepth r
  let m := (List.range 16).foldl (fun m i => m.putRing r (slot * 16 + i) (entry.extractLsb' (32 * i) 32)) m
  let next := BitVec.ofNat 16 (((m.tail r).toNat + 1) % (2 * ringDepth r))
  (m.setTail r next).setHead r next
/-- An entry of a ring whose layout the specification does not give passes (CKC_TX, CKC_RX, PLAN, DRAIN): its words are open. -/
def passOpen (m : M) (r : Nat) : M :=
  let entry : BitVec 512 := (List.range 16).foldl (fun x i => x ||| ((Config.freeWord (m.free + i)).setWidth 512 <<< (32 * i))) 0
  passRing { m with free := m.free + 16 } r entry
/-- The sixteen-bit, or longer, fields of an entry: each with its first byte and its value. -/
def entryOf16 (fs : List (Nat × Nat)) : BitVec 512 := fs.foldl (fun x f => x ||| BitVec.ofNat 512 (f.2 * 2 ^ (8 * f.1))) 0

/-- A slice posts on its SFR ring (Table 16.9): kind 1 STEP_DONE, 2 EVAC_DONE, 3 TAG_UE, 4 DIAG_DONE.  A firmware that runs takes the
entry at once; otherwise it stays, or is dropped and counted when the ring is full (R568, Table 12.11). -/
def pushSfr (e : Env) (m : M) (x kind runId step faults location : Nat) : M :=
  let r := 22 + x
  let drops := Tab.get (fun _ => 0) m.jpc.ringDrops r
  let m' := pushRing e.fuse.variant m r (entryOf16 [(0, kind), (4, drops % 2 ^ 32), (8, m.now), (16, runId), (18, step), (20, faults), (24, location)])
  let m' := if m.ringFree r ≠ 0 then m'.setJpc fun j => { j with ringDrops := Tab.put (fun _ => 0) j.ringDrops r 0 } else m'
  if m.jpc.fw == .running then m'.setHead r (m'.tail r) else m'

/-! ### Responses (Table 12.4) -/

def rspEntry (status : Nat) (final priv : Bool) (d : Desc) (opcode : Nat) (res : BitVec 448) : BitVec 512 :=
  res ++ (0 : BitVec 8) ++ BitVec.ofNat 8 d.ring ++ BitVec.ofNat 16 opcode ++ d.tag
    ++ BitVec.ofNat 8 (bit final + 2 * bit priv) ++ BitVec.ofNat 8 status

/-- A response on DBG_OUT: it waits while the ring is full, since no response is dropped (R579). -/
def pushDbg (v : Variant) (m : M) (x : BitVec 512) : M :=
  if m.ringFree 39 = 0 || !m.jpc.dbgWait.isEmpty then m.setJpc fun j => { j with dbgWait := j.dbgWait ++ [x] }
  else pushRing v m 39 x

/-- The result bytes of a STATE_CONFLICT (R576, R617). -/
def conflictResult (m : M) (block : Nat) : BitVec 448 := resAt 8 m.modeActive.toNat ||| resAt 10 block

/-- Posts a response, and the CMD_DONE copy that evt_copy asks for (Table 12.3). -/
def postRsp (e : Env) (m : M) (d : Desc) (opcode status : Nat) (priv : Bool) (res : BitVec 448) : M :=
  let final := status ≠ 1
  let m := if final then count e m 30 3 1 none else m
  let entry := rspEntry status (decide final) priv d opcode res
  let m := match rspRing d.ring with
    | some 39 => pushDbg e.fuse.variant m entry
    | some r => pushRing e.fuse.variant m r entry
    | none => m
  if final ∧ d.flags.getLsbD 1 then
    match evtRing d.ring with
    | some r => postOn e m r 0x0001 d.tag (BitVec.ofNat 8 status) 1 (BitVec.ofNat 16 opcode) (BitVec.ofNat 8 d.ring)
        (res.setWidth 352)
    | none => pushDbg e.fuse.variant m entry
  else m

/-! ### Service (R578 to R582, R614 to R620) -/

/-- What a command is checked for (R615): its class, the set of R593, its unit, its arguments, the block codes that hold, and whether
it crosses a guard or finds no resource.  `early` commands are served before READY (R894).  `kept` are the results that the command
returns with UNIT_ABSENT and BAD_ARG too (R625, log entry 67). -/
structure Cmd where
  opcode : Nat
  any : Bool := false
  early : Bool := false
  recovery : Bool := false
  absent : Bool := false
  badArg : Bool := false
  blocks : List Nat := []
  guard : Bool := false
  busy : Bool := false
  kept : BitVec 448 := 0

/-- The first check that fails, with the block code of a STATE_CONFLICT (R615, R617). -/
def refusal (m : M) (d : Desc) (c : Cmd) (priv : Bool) : Option (Nat × Nat) :=
  let blocks := (if m.jpc.fw == .recovery && !c.recovery then [1] else []) ++ c.blocks
  if !c.any && !priv then some (0x14, 0)
  else if c.absent then some (0x12, 0)
  else if c.badArg || d.flags.extractLsb' 2 6 != 0 || d.resv != 0 then some (0x11, 0)
  else
    match blocks with
    | b :: rest => some (0x13, rest.foldl min b)
    | [] => if c.guard then some (0x15, 0) else if c.busy then some (0x16, 0) else none

/-- The result bytes of a refusal (R576, R625). -/
def refusalResult (m : M) (c : Cmd) (st b : Nat) : BitVec 448 :=
  if st = 0x13 then conflictResult m b else if st = 0x11 ∨ st = 0x12 then c.kept else 0

/-- Whether the firmware can take a descriptor of this ring now (R578, R579, R593, R618, R620, R894). -/
def served (m : M) (d : Desc) (c : Cmd) : Bool :=
  (match m.jpc.fw with
    | .running => (m.boot.phase == 8 && m.boot.warm.isNone) || c.early
    | .recovery => d.ring.val == 10 || d.ring.val == 38
    | _ => false)
  && (match rspRing d.ring with
    | some r => decide (m.ringFree r ≠ 0) && (r != 39 || m.jpc.dbgWait.isEmpty)
    | none => false)
  && m.prf.snapCmd.isNone
  && inTurn m d.ring
  && !(d.flags.getLsbD 0 && m.jpc.accepted.any fun a => a.ring == d.ring)

/-- A command that completes at once: the checks, its effect and the response.  A command that is not taken yet waits in its ring. -/
def command (e : Env) (m : M) (d : Desc) (c : Cmd) (f : M → M × BitVec 448) : M :=
  if !served m d c then m
  else
    let p := privileged m d
    let m := takeDesc m d
    match refusal m d c p with
    | some (st, b) => postRsp e m d c.opcode st p (refusalResult m c st b)
    | none => postRsp e (f m).1 d c.opcode 0 p (f m).2

/-- A command that ends later (R581): the ACCEPTED response is posted first, then its work `f` starts under a command number.
`limit` is its limit in ms, 0 for none, and `res` the results of the ACCEPTED response. -/
def commandLater (e : Env) (m : M) (d : Desc) (c : Cmd) (limit base top : Nat) (res : M → BitVec 448) (f : M → Nat → M) : M :=
  if !served m d c then m
  else
    let p := privileged m d
    let m := takeDesc m d
    match refusal m d { c with busy := c.busy || decide (16 ≤ m.jpc.accepted.length) } p with
    | some (st, b) => postRsp e m d c.opcode st p (refusalResult m c st b)
    | none =>
      let id := m.jpc.nextId
      let a : Accepted := ⟨id, d.ring, d.tag, BitVec.ofNat 16 c.opcode, m.now,
        if limit = 0 then none else some (m.now + limit * 50000), base, top, [0, 0, 0, 0], [], p⟩
      let m := m.setJpc fun j => { j with accepted := j.accepted ++ [a], nextId := id + 1 }
      f (postRsp e m { d with flags := 0 } c.opcode 1 p (res m)) id

/-- Posts the final status of an accepted command, which then has ended (R581, R612). -/
def endAccepted (e : Env) (m : M) (a : Accepted) (status : Nat) (res : BitVec 448) : M :=
  let m := count e m 30 3 1 none
  let m := m.setJpc fun j => { j with accepted := j.accepted.filter fun x => x.id != a.id }
  match evtRing a.ring with
  | some r => postOn e m r 0x0001 a.tag (BitVec.ofNat 8 status) 1 a.opcode (BitVec.ofNat 8 a.ring) (res.setWidth 352)
  | none => pushDbg e.fuse.variant m
      (rspEntry status true a.prived { ring := a.ring, tag := a.tag } a.opcode.toNat res)

def M.acceptedCmd (m : M) (id : Nat) : Option Accepted := m.jpc.accepted.find? fun a => a.id == id
def M.updCmd (m : M) (id : Nat) (f : Accepted → Accepted) : M :=
  m.setJpc fun j => { j with accepted := j.accepted.map fun a => if a.id == id then f a else a }

/-- The end of an accepted command, if the firmware runs to report it; otherwise the command is still open and ends
ABORTED_RESTART when the firmware returns (R603). -/
def finishCmd (e : Env) (m : M) (id status : Nat) (res : BitVec 448) : M :=
  if m.jpc.fw != .running && m.jpc.fw != .recovery then m
  else
    match m.acceptedCmd id with
    | some a => endAccepted e m a status res
    | none => m

end Sys2Proof.Machine
end

