-- ==== Sys2Proof/Machine/Array.lean ====
section
/-!
DEFINITION. The data array and the on-chip arrays of the slices: decoding a codeword, writing one, the DAC error registers, pin
marks, channel failure, and what a frisket does to a tag, directory or galley word.
-/

namespace Sys2Proof.Machine

open Sys2Proof

/-! ### Codewords (R461 to R474) -/

def M.cw (m : M) (k : Nat) : Codeword := Tab.get (fun _ => .none) m.array k
def M.setCw (m : M) (k : Nat) (c : Codeword) : M := { m with array := Tab.put (fun _ => .none) m.array k c }
/-- The channel of a line is FAILED or not in service. -/
def dacDown (e : Env) (m : M) (l : Line) : Bool := (m.dac (dacOf e.fuse.variant l)).st == .failed

/-- The decode outcomes (Table 10.7). -/
inductive Decode where
  | clean | corrected | poisoned | ambiguous | ue
  deriving DecidableEq, Repr

/-- The outcome of a read of one codeword (R463, R464, R470).  At 2e + m = 8 an ambiguous outcome can arise, and beyond that radius
any outcome, which the free choice decides; a codeword never written decodes as anything (R948). -/
def decodeCw (free : Nat) (marks : BitVec 40) (c : Codeword) (err : BitVec 40) : Decode × BitVec 512 :=
  let bad := (c.err ||| err) &&& ~~~marks
  let e := popCount bad
  let m := popCount marks
  let r := 2 * e + m
  let any : Decode :=
    match Config.decodeChoice free % 5 with
    | 0 => .ue | 1 => .clean | 2 => .corrected | 3 => .poisoned | _ => .ambiguous
  if !c.written then (any, Config.undecoded free)
  else if e = 0 then (if c.poison then .poisoned else .clean, c.data)
  else if r < 8 then (if c.poison then .poisoned else .corrected, c.data)
  else if r = 8 then
    if c.poison then
      match Config.decodeChoice free % 3 with
      | 0 => (.poisoned, c.data)
      | 1 => (.ambiguous, c.data)
      | _ => (.corrected, Config.undecoded free)
    else (if Config.decodeChoice free % 2 = 0 then .corrected else .ambiguous, c.data)
  else
    match Config.decodeChoice free % 4 with
    | 0 => (.ue, Config.undecoded free)
    | 1 => (.corrected, Config.undecoded free)
    | 2 => (.poisoned, Config.undecoded free)
    | _ => (.ambiguous, Config.undecoded free)

/-- Captures the newest event with a codeword address (R498). -/
def errLast (e : Env) (m : M) (d addr kind unknown : Nat) (pins : BitVec 40) : M :=
  let m := wr e m (rDac d 5) (BitVec.ofNat 32 (addr + kind * 2^26 + unknown * 2^28))
  let m := wr e m (rDac d 6) (pins.setWidth 32)
  wr e m (rDac d 7) (BitVec.ofNat 32 (pins.toNat / 2^32))

/-- The slice whose line a codeword address belongs to (Table 10.4). -/
def cwSlice (e : Env) (a : Nat) : Nat := a / (e.fuse.variant.sets * 16 * (32 / e.fuse.variant.dacs) * 2) % 16
/-- A channel's components leave self-refresh; a tracking read is then owed before the first write (R457). -/
def leaveSref (m : M) (d : Nat) : M :=
  if (m.dac d).sref then m.setDac d { m.dac d with sref := false, tracked := false } else m

/-- One write of a codeword, encoded (R462), after the tracking read that may be owed (R457); an armed frisket of the channel strikes it
(R489, R490). -/
def writeCw (e : Env) (m : M) (d a : Nat) (data : BitVec 512) (poison : Bool) : M :=
  let m := count e m (dacIsland d) 2 1 none
  let x := { m.dac d with tracked := true }
  let m := m.setDac d x
  let f := x.frisket
  if f.armed && (!f.matchEn || f.matchAddr.toNat == a) then
    let pins : BitVec 40 := if f.beats == 0 then 0 else f.mask.setWidth 40
    let m := m.setCw (d * 67108864 + a) ⟨true, data, poison, pins⟩
    let m := m.setDac d { x with frisket := { f with armed := false } }
    let m := errLast e m d a 0 0 (f.mask.setWidth 40)
    log e m 0x0406 (dacIsland d) 0 (BitVec.ofNat 32 d) (BitVec.ofNat 64 a)
  else m.setCw (d * 67108864 + a) ⟨true, data, poison, 0⟩

/-- A CORRECTED read: the entry, the counts, the correction writeback and the start of diagnosis (R471, R473, R757). -/
def corrected (e : Env) (m : M) (d a : Nat) (c : Codeword) (bad : BitVec 40) (rmw : Bool) : M :=
  let m := bump e m (rDac d 3) 1
  let m := errLast e m d a 1 (min (popCount bad) 15) bad
  let m := (List.range 40).foldl (fun w k =>
    if bad.getLsbD k then
      let r := rd e w (rDac d (0x28 + k))
      wr e w (rDac d (0x28 + k)) (setFld r 16 16 (min (fld r 16 16 + 1) 0xFFFF))
    else w) m
  let m := log e m 0x0401 (dacIsland d) (BitVec.ofNat 32 d) (BitVec.ofNat 32 a) (bad.setWidth 64)
  let x := m.dac d
  let m :=
    if rmw || m.cw (d * 67108864 + a) != c then m
    else if x.corrections.length < 16 then
      let m := count e m (dacIsland d) 5 1 none
      let m := m.setDac d { x with corrections := BitVec.ofNat 26 a :: x.corrections }
      m.setCw (d * 67108864 + a) { m.cw (d * 67108864 + a) with err := 0 }
    else wr e m (rDac d 0) (rd e m (rDac d 0) ||| 0x100)
  let x := m.dac d
  let recent := match x.diagEnd with
    | some t => decide (m.now < t + 50000)
    | none => false
  if e.cfg.patrolDiag && x.diag.isNone && !recent then m.setDac d { x with diag := some (BitVec.ofNat 26 a) } else m

/-- The pins that a read decoded UNCORRECTABLE or AMBIGUOUS names: the decoder knows none of them (Table 10.14), so the specification
gives no value (log entry 20). -/
def openPins (m : M) : BitVec 40 := (Config.freeWord (m.free + 1)).setWidth 8 ++ Config.freeWord m.free

/-- One read of a codeword that was found as `c` (R465): the outcome, with the log entries, counts and registers it brings.  A FAILED
channel answers UNCORRECTABLE and logs nothing for it (R493).  `rmw` is the read of a read-modify-write, which queues no writeback
(Table 10.8), or one with a newer write on its way, which discards it (R472). -/
def readCwOf (e : Env) (m : M) (d a : Nat) (c : Codeword) (err : BitVec 40) (rmw : Bool) : M × Decode × BitVec 512 :=
  let x := m.dac d
  if x.st == .failed then ({ m with free := m.free + 1 }, .ue, Config.undecoded m.free)
  else
    let (o, data) := decodeCw m.free x.marks c err
    let bad := (c.err ||| err) &&& ~~~x.marks
    let m := { m with free := m.free + 1 }
    let m := count e m (dacIsland d) 1 1 none
    let m := if x.marks == 0 then m else count e m (dacIsland d) 0xA 1 none
    let m := match o with
      | .clean => m
      | .corrected => corrected e m d a c bad rmw
      | .poisoned => errLast e m d a 3 (if bad == 0 then 0 else min (popCount bad) 15) bad
      | .ambiguous =>
        let m := bump e m (rDac d 4) 1
        let pins := openPins m
        let m := errLast e { m with free := m.free + 2 } d a 2 15 pins
        log e m 0x0403 (dacIsland d) (BitVec.ofNat 32 d) (BitVec.ofNat 32 a) (pins.setWidth 64)
      | .ue =>
        let m := bump e m (rDac d 4) 1
        let pins := openPins m
        let m := errLast e { m with free := m.free + 2 } d a 2 15 pins
        log e m 0x0402 (dacIsland d) (BitVec.ofNat 32 d) (BitVec.ofNat 32 a) (pins.setWidth 64)
    (m, o, data)

/-- One read of a codeword as it stands. -/
def readCw (e : Env) (m : M) (d a : Nat) (err : BitVec 40) (rmw : Bool) : M × Decode × BitVec 512 :=
  readCwOf e m d a (m.cw (d * 67108864 + a)) err rmw

/-- The place of a half line: its channel and codeword address (Table 10.4). -/
def cwPlace (e : Env) (l : Line) (w half : Nat) : Nat × Nat :=
  (dacOf e.fuse.variant l, cwAddr e.fuse.variant l w half)

/-- A whole line written, poisoned or not (R468). -/
def writeLineArray (e : Env) (m : M) (l : Line) (w : Nat) (data : Data) (poison : Bool) : M :=
  if dacDown e m l then m
  else
    let m := writeCw e m (cwPlace e l w 0).1 (cwPlace e l w 0).2 (halfOf data 0) poison
    writeCw e m (cwPlace e l w 1).1 (cwPlace e l w 1).2 (halfOf data 1) poison

/-- Whether a write of the line is queued or in flight at its channel: a correction writeback behind it is discarded (R472). -/
def writeQueued (m : M) (l : Line) : Bool := m.coh.galley.any (fun g => g.line == l && g.daBusy) || m.coh.fills.any (fun f => f.line == l)
/-- A line read of the data array: both halves (R465), found as `lo` and `hi`.  Answers the data, whether it is poisoned, and whether a
half was UNCORRECTABLE. -/
def readLineOf (e : Env) (m : M) (l : Line) (w : Nat) (lo hi : Codeword) (err0 err1 : BitVec 40) : M × Data × Bool × Bool :=
  let (m, o0, d0) := readCwOf e m (cwPlace e l w 0).1 (cwPlace e l w 0).2 lo err0 (writeQueued m l)
  let (m, o1, d1) := readCwOf e m (cwPlace e l w 1).1 (cwPlace e l w 1).2 hi err1 (writeQueued m l)
  let poison := o0 == .poisoned || o0 == .ambiguous || o1 == .poisoned || o1 == .ambiguous
  (m, joinHalves d0 d1, poison, o0 == .ue || o1 == .ue)

/-- The data of a line that is lost: the specification gives a poisoned line no data (log entry 20).  Whoever uses it advances the
counter by 2. -/
def lostData (m : M) : Data := joinHalves (Config.undecoded m.free) (Config.undecoded (m.free + 1))

/-- The read of the halves that a masked write leaves incomplete (R482): a half that the mask covers in part is read for the
read-modify-write, which queues no correction writeback (Table 10.8); one outside the mask is read as in any line read, so that the
galley entry holds the whole line (R483, log entry 130).  Answers the line as read and the outcome of each half, CLEAN for one not read. -/
def readRest (e : Env) (m : M) (l : Line) (w : Nat) (mask : Mask) (lo hi : Codeword) (err0 err1 : BitVec 40) :
    M × Data × Decode × Decode :=
  let half (m : M) (h : Nat) (c : Codeword) (err : BitVec 40) : M × Decode × BitVec 512 :=
    let hm := mask.extractLsb' (64 * h) 64
    if hm == BitVec.allOnes 64 then (m, .clean, 0)
    else
      let m := if hm == 0 then m else count e m (dacIsland (cwPlace e l w h).1) 4 1 none
      readCwOf e m (cwPlace e l w h).1 (cwPlace e l w h).2 c err (hm != 0 || writeQueued m l)
  let (m, o0, d0) := half m 0 lo err0
  let (m, o1, d1) := half m 1 hi err1
  (m, joinHalves d0 d1, o0, o1)
/-- The array write of a masked write whose line is whole: the halves that the mask touches (R482). -/
def writeMasked (e : Env) (m : M) (l : Line) (w : Nat) (data : Data) (mask : Mask) : M :=
  if dacDown e m l then m
  else
    [0, 1].foldl (fun m h =>
      if mask.extractLsb' (64 * h) 64 == 0 then m
      else writeCw e m (cwPlace e l w h).1 (cwPlace e l w h).2 (halfOf data h) false) m

/-! ### Pin marks and channel failure (R475 to R481, R492, R493) -/

/-- A channel becomes FAILED (R493): the entry, the corrections and the frisket are dropped. -/
def failDac (e : Env) (m : M) (d cause : Nat) : M :=
  let x := m.dac d
  if x.st == .failed then m
  else
    let m := m.setDac d { x with
      st := .failed, failCause := BitVec.ofNat 4 cause, corrections := [], diag := none, sref := false
      frisket := { x.frisket with armed := false } }
    log e m 0x0404 (dacIsland d) (BitVec.ofNat 32 d) (BitVec.ofNat 32 cause) 0

/-- Marks a failed pin (R476), or fails the channel at the seventh (R478). -/
def markPin (e : Env) (m : M) (d pin cause : Nat) : M :=
  let x := m.dac d
  if x.st == .failed || x.marks.getLsbD pin then m
  else if 6 ≤ popCount x.marks then failDac e m d 3
  else
    let m := m.setDac d { x with
      marks := x.marks ||| ((1 : BitVec 40) <<< pin)
      markCause := Tab.put (fun _ => 0) x.markCause pin (BitVec.ofNat 3 cause) }
    log e m 0x0407 (dacIsland d) (BitVec.ofNat 32 d) (BitVec.ofNat 32 pin) (BitVec.ofNat 64 cause)

/-! ### Friskets on the slice arrays (R485 to R490, R946) -/

/-- The frisket of an on-chip target of a slice: 1 tag bank, 2 directory bank, 3 galley. -/
def M.slcFrisket (m : M) (target x : Nat) : Frisket := Tab.get (fun _ => .none) m.proof.frisketSlice (target * 16 + x)
def M.setSlcFrisket (m : M) (target x : Nat) (f : Frisket) : M :=
  m.setProof fun p => { p with frisketSlice := Tab.put (fun _ => .none) p.frisketSlice (target * 16 + x) f }

/-- A write of some words of a slice array: a good word replaces a corrupted one, and an armed frisket corrupts one word. -/
def wordsWritten (e : Env) (m : M) (target x : Nat) (words : List Nat) : M :=
  let m := m.setCoh fun c => { c with
    bad := c.bad.filter fun b => !(b.target == target && b.slice == x && words.contains b.word) }
  let f := m.slcFrisket target x
  let hit := if f.matchEn then words.find? (· == f.matchAddr.toNat) else words.head?
  match f.armed, hit with
  | true, some w =>
    let m := m.setSlcFrisket target x { f with armed := false }
    let m := m.setCoh fun c => { c with bad := ⟨target, x, w, f.mask⟩ :: c.bad }
    log e m 0x0406 x (BitVec.ofNat 32 target) (BitVec.ofNat 32 x) (BitVec.ofNat 64 w)
  | _, _ => m

/-- The array code of an on-chip target in SRAM_CE and SRAM_UE (Table 16.8). -/
def sramArray (target : Nat) : Nat := target - 1

/-- The data bits that an error of three or more bits of a word changes without being reported (R947): those of the error itself, and
one further bit where the decoder miscorrects it; which one is open (log entry 21). -/
def wrongBits (free : Nat) (mask : BitVec 72) (r : Nat) : BitVec 64 :=
  if popCount mask < 3 || r = 2 then 0
  else
    let more : BitVec 72 := if r == 1 then (1 : BitVec 72) <<< (Config.secdedChoice (free + 1) % 72) else 0
    (mask ^^^ more).setWidth 64
/-- A word of a slice array passes with wrong content (R947): target 1 the tag bank, 2 the directory bank, 3 the galley. -/
def flipWord (m : M) (target x w : Nat) (f : BitVec 64) : M :=
  if f == 0 then m
  else
    let a := if w % 2 = 0 then f else 0
    let b := if w % 2 = 0 then 0 else f
    match target with
    | 1 =>
      let t := m.tagAt (x * 524288 + w / 2)
      m.setTag (x * 524288 + w / 2) (.ofWords (t.sectors ^^^ a) (t.word1 ^^^ b))
    | 2 =>
      let d := m.dirAt (x * 131072 + w / 2)
      m.setDir (x * 131072 + w / 2) (.ofWords (d.presence ^^^ a) (d.word1 ^^^ b))
    | _ =>
      let flip (g : GEntry) : GEntry :=
        if sliceOf g.line == x && g.slot == w / 16 then { g with data := g.data ^^^ (f.setWidth 1024 <<< (64 * (w % 16))) } else g
      m.setCoh fun c => { c with galley := c.galley.map flip }

/-- A read of a word: the SEC-DED outcome of what corrupted it, 0 good, 1 corrected, 2 uncorrectable (R486, R487, R947).  The word is
good afterwards: corrected, written back, or rewritten by the action on an uncorrectable word; an error that passes unseen, or is
corrected wrongly, leaves it with wrong content. -/
def readWord (e : Env) (m : M) (target x w : Nat) : M × Nat :=
  match m.coh.bad.find? fun b => b.target == target && b.slice == x && b.word == w with
  | none => (m, 0)
  | some b =>
    let r := secded m.free b.mask
    let m := flipWord m target x w (wrongBits m.free b.mask r)
    let m := { m with free := m.free + 2 }
    let m := m.setCoh fun c => { c with bad := c.bad.filter (· ≠ b) }
    match r with
    | 1 =>
      let m := count e m x 0x16 1 none
      (log e m 0x0501 x (BitVec.ofNat 32 (sramArray target)) (BitVec.ofNat 32 x) (BitVec.ofNat 64 w), 1)
    | 2 => (log e m 0x0502 x (BitVec.ofNat 32 (sramArray target)) (BitVec.ofNat 32 x) (BitVec.ofNat 64 w), 2)
    | n => (m, n)

/-- Writes a tag entry, with the frisket of the bank on the words that change; an entry for another folio is written whole (log
entry 70). -/
def putTag (e : Env) (m : M) (key : Nat) (t : TagEntry) : M :=
  let old := m.tagAt key
  let x := key / 524288
  let w := key % 524288 * 2
  let whole := old.tag != t.tag || old.pa12 != t.pa12 || old.mirrorFolio != t.mirrorFolio
  let words := (if old.sectors == t.sectors && !whole then [] else [w]) ++ (if old.word1 == t.word1 then [] else [w + 1])
  let m := m.setTag key t
  if words.isEmpty then m else wordsWritten e m 1 x words

/-- What a write of word 1 stores: nothing for an entry in I, and not the four flags of an open transaction, which its miss-tracking
entry holds too (log entry 70). -/
def DirEntry.stored1 (d : DirEntry) : BitVec 64 := if d.st == .I then 0 else d.word1 &&& 0xFFF0FFFFFFFFFFFF

/-- Writes a directory entry, with the frisket of the bank on the words that change. -/
def putDir (e : Env) (m : M) (key : Nat) (t : DirEntry) : M :=
  let old := m.dirAt key
  let x := key / 131072
  let w := key % 131072 * 2
  let words := (if old.presence == t.presence then [] else [w]) ++ (if old.stored1 == t.stored1 then [] else [w + 1])
  let m := m.setDir key t
  if words.isEmpty then m else wordsWritten e m 2 x words

end Sys2Proof.Machine
end

