-- ==== Sys2Proof/Machine/Galley.lean ====
section
/-!
DEFINITION. Tag lookups, memory-port requests, mirror messages and galley entries: what a slice does with one line once it has
decided to write, read or clean it.
-/

namespace Sys2Proof.Machine

open Sys2Proof

/-! ### Sides (R31, R506, R507) -/

def ownSide (m : M) (l : Line) : Bool := twinSide l == m.pins.pairSide
/-- Whether the device is primary for a line (Table 11.4). -/
def primaryFor (m : M) (l : Line) : Bool :=
  let one (s : PairState) : Bool :=
    match s with
    | .unpaired | .adopted => true
    | .deposed => false
    | _ => ownSide m l
  match m.twin.st with
  | .hello | .shed => one m.twin.from_
  | s => one s
/-- Whether the device can mirror a line (R521). -/
def canMirror (e : Env) (m : M) (modes : BitVec 12) (l : Line) (required : Bool) : Bool :=
  modes.getLsbD mMirror && (m.twin.st == .paired || m.twin.st == .suspect) && ownSide m l
    && (!(rd e m rScope).getLsbD 0 || required)

/-! ### Tag lookups (R121, R131, R132) -/

/-- Whether miss tracking holds a way: for a transaction, or for a line served from the galley that is still to be filled (R141). -/
def tagHeld (e : Env) (m : M) (key : Nat) : Bool :=
  (m.coh.txns.any fun t => decide (t.tagWay < 16) && tagKey e.fuse.variant t.req.line t.tagWay == key)
    || (m.coh.galley.any fun g => decide (g.refill < 16) && tagKey e.fuse.variant g.line g.refill == key)
/-- An empty way (R121): no sector and no miss-tracking entry. -/
def tagEmpty (e : Env) (m : M) (key : Nat) : Bool := (m.tagAt key).isEmpty && !tagHeld e m key
/-- The way that holds a line's folio, as a primary or as a mirror folio; a holder does not find a folio under evacuation (R742). -/
def findTag (e : Env) (m : M) (l : Line) (mirror : Bool) : Option Nat :=
  (List.range 16).find? fun w =>
    let k := tagKey e.fuse.variant l w
    let t := m.tagAt k
    t.tag == tagOf l && t.pa12 == pa12 l && t.mirrorFolio == mirror && !(mirror && t.evac) && !tagEmpty e m k
/-- The state of a line's sector in its primary folio; 0 where no folio is resident. -/
def sectorOf (e : Env) (m : M) (l : Line) : Nat :=
  match findTag e m l false with
  | some w => (m.tagAt (tagKey e.fuse.variant l w)).sector (lineIndex l)
  | none => 0
/-- Changes the entry that holds a line's folio. -/
def updTag (e : Env) (m : M) (l : Line) (mirror : Bool) (f : TagEntry → TagEntry) : M :=
  match findTag e m l mirror with
  | some w => putTag e m (tagKey e.fuse.variant l w) (f (m.tagAt (tagKey e.fuse.variant l w)))
  | none => m
def setSector (e : Env) (m : M) (l : Line) (mirror : Bool) (v : Nat) : M :=
  updTag e m l mirror fun t => t.setSector (lineIndex l) v

def M.galleyOf (m : M) (l : Line) : Option GEntry := m.coh.galley.find? fun g => g.line == l
def M.updG (m : M) (l : Line) (f : GEntry → GEntry) : M :=
  m.setCoh fun c => { c with galley := c.galley.map fun g => if g.line == l then f g else g }
/-- pinned_by_galley follows the galley (R291), in every way that names the folio, evacuated ones included. -/
def repin (e : Env) (m : M) (l : Line) : M :=
  let p := m.coh.galley.any fun g => folioOf g.line == folioOf l
  (List.range 16).foldl (fun m w =>
    let k := tagKey e.fuse.variant l w
    let t := m.tagAt k
    let pin := p && (t.pinned || !tagEmpty e m k)
    if t.tag == tagOf l && t.pa12 == pa12 l && t.pinned != pin then putTag e m k { t with pinned := pin } else m) m

/-! ### Fill staging (R45, R49, R52) -/

/-- The fill data of a line whose array write has not been done, while its sector holds it. -/
def fillOf (e : Env) (m : M) (l : Line) : Option Fill :=
  (m.coh.fills.find? fun f => f.line == l).filter fun f => findTag e m l false == some f.way && sectorOf e m l != 0
def dropFill (m : M) (l : Line) : M := m.setCoh fun c => { c with fills := c.fills.filter fun f => f.line != l }
/-- poison_any of the folio that holds a line (R122). -/
def notePoison (e : Env) (m : M) (l : Line) (mirror : Bool) : M := updTag e m l mirror fun t => { t with poisonAny := true }
/-- A message for a stopped island: the XBR holds it, and it wakes the island (R78, R79, R80). -/
def knock (e : Env) (m : M) (i : Nat) : M :=
  if m.isl.run.getLsbD i then m
  else (noteWake (count e m 16 5 1 none) i).setIsl fun x => { x with waking := x.waking ||| ((1 : Word) <<< i) }

/-- A way that an allocation may take (R131). -/
def eligible (e : Env) (m : M) (l : Line) (w : Nat) : Bool :=
  let k := tagKey e.fuse.variant l w
  let t := m.tagAt k
  let x := Tab.get (fun _ => (0 : BitVec 32)) m.proof.excl (sliceOf l)
  !x.getLsbD w && !t.evac && !t.pinned && !tagHeld e m k

/-- One aging step over the candidates of a set. -/
def ageStep (e : Env) (m : M) (l : Line) (cand : List Nat) : M :=
  cand.foldl (fun a w =>
    let k := tagKey e.fuse.variant l w
    let t := a.tagAt k
    putTag e a k { t with age := t.age + 1 }) m

/-- The oldest candidate after as many aging steps as it takes, at most seven (R132). -/
def ageSearch (e : Env) (l : Line) (cand : List Nat) : Nat → M → M × Option Nat
  | 0, m => (m, none)
  | n + 1, m =>
    match cand.find? fun w => (m.tagAt (tagKey e.fuse.variant l w)).age == 7 with
    | some w => (m, some w)
    | none => ageSearch e l cand n (ageStep e m l cand)

/-- choose_way of R132. -/
def chooseWay (e : Env) (m : M) (l : Line) (forMirror : Bool) : M × Option Nat :=
  let key := tagKey e.fuse.variant l
  let mirrors := ((List.range 16).filter fun w => (m.tagAt (key w)).mirrorFolio && !tagEmpty e m (key w)).length
  if forMirror && 4 ≤ mirrors then (m, none)
  else
    match (List.range 16).find? fun w => eligible e m l w && tagEmpty e m (key w) with
    | some w => (m, some w)
    | none =>
      let cand := (List.range 16).filter fun w => eligible e m l w && !(m.tagAt (key w)).mirrorFolio
      if cand.isEmpty then (m, none) else ageSearch e l cand 9 m

/-! ### Memory requests (R279, Table 8.10) -/

def memUp (m : M) (p : MPort) : Bool := (m.link p.lnk).st == .active || (m.link p.lnk).st == .retrain
/-- Whether the other port counts as usable (R414). -/
def otherUsable (e : Env) (m : M) (p : MPort) : Bool := (rd e m rEquiv).getLsbD 0 && memUp m p.other
def MemReq.msg (r : MemReq) : Msg := if r.write then .memWr r.tag r.line r.full r.mask r.data r.poison else .memRd r.tag r.line
/-- The first tag from `t` on that no outstanding request has. -/
def freeTag (used : List Tag) : Nat → Tag → Tag
  | 0, t => t
  | n + 1, t => if used.contains t then freeTag used n (t + 1) else t

/-- Sends a request: it takes a free tag of the port (R279). -/
def memSend (e : Env) (m : M) (p : MPort) (r : MemReq) : M :=
  let q := m.mem p
  let t := freeTag (q.outstanding.map (·.tag)) 4096 q.next
  let r := { r with tag := t, sent := none }
  let m := m.setMem p { q with outstanding := q.outstanding ++ [r], next := t + 1 }
  send e (count e m p.lnk.island 7 1 none) p.lnk [r.msg]
/-- Sends a request on a port that can take it, or queues it behind those for its line (R279). -/
def memPut (e : Env) (m : M) (p : MPort) (r : MemReq) : M :=
  let q := m.mem p
  if q.outstanding.any (·.line == r.line) || 1024 ≤ q.outstanding.length || q.queue.any (·.line == r.line) then
    m.setMem p { q with queue := q.queue ++ [r] }
  else memSend e m p r

/-- Issues a memory request; answers whether it was answered at once as poisoned data (Table 8.10). -/
def memIssue (e : Env) (m : M) (p : MPort) (r : MemReq) : M × Bool :=
  if memUp m p then (memPut e m p r, false)
  else if otherUsable e m p then (memPut e (count e m p.lnk.island 0xE 1 none) p.other r, false)
  else if r.write then
    let m := m.updG r.line fun g => { g with memHeld := g.memHeld || r.use == .galley }
    (m.setMem p { m.mem p with held := (m.mem p).held ++ [r] }, false)
  else (m, true)

/-- Sends what the port's queue holds and can now go, oldest first. -/
def memPump (e : Env) (p : MPort) : Nat → M → M
  | 0, m => m
  | n + 1, m =>
    let q := m.mem p
    if 1024 ≤ q.outstanding.length then m
    else
      match q.queue.find? fun r => !q.outstanding.any (·.line == r.line) with
      | none => m
      | some r => memPump e p n (memSend e (m.setMem p { q with queue := q.queue.erase r }) p r)

/-! ### Mirror messages of the primary (R504, R522, R527) -/

def freeMtag (used : List Tag) : Nat → Tag → Tag
  | 0, t => t
  | n + 1, t => if t == 0 || used.contains t then freeMtag used n (t + 1) else t

/-- Allocates an mtag for a MIR_WRITE or a MIR_FETCH, if one is free. -/
def takeMtag (m : M) (l : Line) (fetch : Bool) : Option (M × Tag) :=
  if 4095 ≤ m.mir.outstanding.length then none
  else
    let t := freeMtag (m.mir.outstanding.map (·.mtag)) 4096 m.mir.nextMtag
    some (m.setMir fun r => { r with outstanding := r.outstanding ++ [⟨t, l, fetch, m.mode.gen⟩], nextMtag := t + 1 }, t)

/-- Sends a message on the CKL and counts it by class (Table 17.5). -/
def sendCkl (e : Env) (m : M) (x : Msg) : M :=
  let code := match x.cost.1 with
    | 1 => 4 | 2 => 6 | _ => 0
  let m := if code = 0 then m else count e m 29 code 1 none
  let m := match x with
    | .mirWrite _ _ _ _ _ _ _ | .mirFetch _ _ => m.setMir fun r => { r with sent := r.sent + 1 }
    | .mirAck _ | .mirNak _ _ | .mirData _ _ _ => m.setMir fun r => { r with replied := r.replied + 1 }
    | .mirLost t _ => if t == 0 then m else m.setMir fun r => { r with replied := r.replied + 1 }
    | _ => m
  send e m .ckl [x]

/-- The states in which a MIR_WRITE may be sent: PAIRED (R521), and RELEASING for what was waiting (log entry 97). -/
def M.mirrorUp (m : M) : Bool := m.twin.st == .paired || m.twin.st == .releasing

/-- The mirror message of one write: a MIR_WRITE whose mtag becomes the newest version of the line (R522).  Without a free mtag, and
while the twin is away, the line waits (R521).  Answers the mtag its waiters await; 0 stands for a message that still waits. -/
def mirSend (e : Env) (m : M) (l : Line) (data : Data) (mask : Mask) (poison : Bool) (port : MPort) : M × Tag :=
  let wait : M × Tag :=
    ((m.updG l fun g => { g with mirWait := true, vers := none }).setMir fun r =>
      { r with resend := if r.resend.contains l then r.resend else r.resend ++ [l] }, 0)
  if !m.mirrorUp then wait
  else
    match takeMtag m l false with
    | none => wait
    | some (m, t) =>
      let m := m.updG l fun g => { g with mirWait := true, vers := some t }
      let m := count e m (sliceOf l) 0x13 1 none
      (sendCkl e m (.mirWrite t poison port (mask == fullMask) l mask data), t)

/-- A write gives its line a new version: MIR_NAKs and MIR_LOSTs are counted anew (R525, R742). -/
def newVersion (m : M) (l : Line) : M := m.setMir fun r => { r with naks := r.naks.filter fun x => x.1.1 != l }

/-- Sends the MIR_RELEASE of a line that has left Dirty, once every MIR_WRITE of the line is answered (R527). -/
def mirRelease (e : Env) (m : M) (l : Line) : M :=
  if m.twin.st != .paired || !ownSide m l then m
  else if m.mir.outstanding.any fun o => o.line == l && !o.fetch then
    m.setMir fun r => { r with releases := if r.releases.contains l then r.releases else r.releases ++ [l] }
  else sendCkl e m (.mirRelease l)

/-- Sends the MIR_RELEASEs that waited for an answer on this line, unless the line is Dirty again. -/
def flushRelease (e : Env) (m : M) (l : Line) : M :=
  if m.mir.releases.contains l && !(m.mir.outstanding.any fun o => o.line == l && !o.fetch) then
    let m := m.setMir fun r => { r with releases := r.releases.erase l }
    if 2 ≤ sectorOf e m l then m else mirRelease e m l
  else m

/-! ### Barrier epochs and responses (R273, R274, R381) -/

def PortSt.epochsOf (p : PortSt) (a : Agent) : Epochs := Tab.get (fun _ => .empty) p.epochs (a.toNat % 32)
def PortSt.setEpochs (p : PortSt) (a : Agent) (x : Epochs) : PortSt :=
  { p with epochs := Tab.put (fun _ => .empty) p.epochs (a.toNat % 32) x }

/-- The outcome codes of a sample in the order of Table 17.9: the first that applies stays. -/
def outcomeRank (o : Nat) : Nat :=
  match o with
  | 6 => 0 | 4 => 1 | 5 => 2 | 7 => 3 | 2 => 4 | 3 => 5 | 1 => 6 | _ => 7
def noteOutcome (m : M) (p : HPort) (tag : Tag) (o : Nat) : M :=
  m.setPrf fun r => { r with sampled := r.sampled.map fun x =>
    if x.port == p && x.tag == tag && outcomeRank o < outcomeRank x.outcome then { x with outcome := o } else x }

/-- The 32 bytes of a sample entry (Table 17.8); the latency is open (log entry 32). -/
def sampleEntry (m : M) (x : Sample) (dropped : Bool) (seq : BitVec 16) : BitVec 256 :=
  (0 : BitVec 32) ++ BitVec.ofNat 32 x.interval ++ seq ++ (0 : BitVec 4) ++ x.tag ++ Config.latency m.free
    ++ (0 : BitVec 5) ++ Config.inkClass m.free
    ++ BitVec.ofNat 8 ((if x.opcode == 0x16 then 0 else sliceOf x.line) + 16 * x.outcome)
    ++ (0 : BitVec 3) ++ (if x.opcode == 0x16 then 0 else x.line) ++ x.opcode
    ++ BitVec.ofNat 8 (x.agent.toNat + 64 * x.port.n + 128 * bit dropped) ++ BitVec.ofNat 48 x.arrived

/-- The bin of a latency (R869). -/
def histBin (shift : Nat) (lat : Nat) : Nat := min (lat / 2 ^ shift) 23
/-- Adds one to a histogram bin, 48 bits wide (R869). -/
def histCount (e : Env) (m : M) (p : HPort) (bin : Nat) : M :=
  let w := 0x600E + 48 * p.n + 2 * bin
  let lo := (rd e m w).toNat + 1
  let m := wr e m w (BitVec.ofNat 32 lo)
  if lo < 2 ^ 32 then m else wr e m (w + 1) (BitVec.ofNat 32 ((rd e m (w + 1)).toNat % 65536 + 1) &&& 0xFFFF)

/-- Writes the entry of a sampled request when its final response leaves (R798, R799). -/
def sampleDone (e : Env) (m : M) (p : HPort) (tag : Tag) (dropped : Bool) : M :=
  match m.prf.sampled.find? fun x => x.port == p && x.tag == tag with
  | none => m
  | some x =>
    let ring := if p == .hpa then 4 else 9
    let seq := Tab.get (fun _ => 0) m.prf.smpSeq p.n
    let m1 := m.setPrf fun r => { r with
      sampled := r.sampled.erase x, smpSeq := Tab.put (fun _ => 0) r.smpSeq p.n (seq + 1) }
    let m1 := { m1 with free := m1.free + 1 }
    if m.ringFree ring = 0 then bump e m1 (rSmpDrop + p.n) 1
    else pushRing e.fuse.variant m1 ring ((0 : BitVec 256) ++ sampleEntry m x dropped seq)

/-- A request that has looked up a span has sent its final response, or will send none (R163). -/
def doneLook (m : M) (p : HPort) (tag : Tag) : M :=
  m.setCoh fun c => { c with looked := c.looked.erase (p, tag), syncs := c.syncs.map fun s => (s.1, s.2.erase (p, tag)) }
/-- The final response of a request (Table 8.7): the messages leave and, unless GRANT_ACK will free it, the host's tag is free. -/
def respond (e : Env) (m : M) (p : HPort) (tag : Tag) (ms : List Msg) (frees : Bool) : M :=
  let m := send e m p.lnk ms
  let m := count e m p.lnk.island 8 1 none
  let counted := e.cfg.smpMask.getLsbD p.n && m.modeBit mSample
  let m := if counted then histCount e m p (histBin e.cfg.histShift.toNat (Config.latency m.free).toNat) else m
  let m := sampleDone e m p tag false
  let m := doneLook (if counted then { m with free := m.free + 1 } else m) p tag
  if frees then
    m.setPort p { m.port p with
      outstanding := (m.port p).outstanding.filter (·.1 ≠ tag)
      unreplied := (m.port p).unreplied.map fun s => (s.1, s.2.erase tag) }
  else m

/-- The response to a configuration access; it is neither sampled nor in the histogram (R795, R869). -/
def respondCfg (e : Env) (m : M) (p : HPort) (tag : Tag) (msg : Msg) (silent : Bool) : M :=
  let m := if silent then m else count e (send e m p.lnk [msg]) p.lnk.island 8 1 none
  m.setPort p { m.port p with outstanding := (m.port p).outstanding.filter (·.1 ≠ tag) }

/-- Completes the BARRIER_Cs of an agent whose closed epochs have counted down, in order (R274, R275). -/
def finishBarriers (e : Env) (p : HPort) (a : Agent) : Nat → M → M
  | 0, m => m
  | n + 1, m =>
    let x := (m.port p).epochsOf a
    match x.barriers with
    | [] => m
    | (ep, tag) :: rest =>
      if x.counts.any fun c => decide (c.1 ≤ ep) && decide (0 < c.2) then m
      else
        let m := m.setPort p ((m.port p).setEpochs a { x with
          barriers := rest, counts := x.counts.filter fun c => decide (ep < c.1) })
        finishBarriers e p a n (respond e m p tag [.cmp tag false] true)

/-- One write of an agent leaves its epoch (R273). -/
def decEpoch (e : Env) (m : M) (p : HPort) (a : Agent) (ep : Nat) : M :=
  let x := (m.port p).epochsOf a
  let cs := (x.counts.map fun c => if c.1 == ep then (c.1, c.2 - 1) else c).filter fun c => c.2 ≠ 0
  finishBarriers e p a 9 (m.setPort p ((m.port p).setEpochs a { x with counts := cs }))
/-- One write of an agent enters its open epoch. -/
def incEpoch (x : Epochs) : Epochs :=
  if x.counts.any fun c => c.1 == x.opened then
    { x with counts := x.counts.map fun c => if c.1 == x.opened then (c.1, c.2 + 1) else c }
  else { x with counts := x.counts ++ [(x.opened, 1)] }

/-- A request that waited on a galley entry has reached its end point: the response, or the end-point notice after a CMP_EARLY
(R54 to R56, R244, R273). -/
def endPoint (e : Env) (slice : Nat) (m : M) (w : Waiter) : M :=
  if w.cmd ≠ 0 then m
  else if w.early then m.setCoh fun c => { c with notices := c.notices ++ [(slice, w.port, w.agent, w.epoch)] }
  else
    let m := if w.answer then
        respond e m w.port w.tag
          [match w.old with
            | some o => .data w.tag w.poison 1 (o.setWidth 1024)
            | none => .cmp w.tag w.ok] true
      else m
    decEpoch e m w.port w.agent w.epoch

/-! ### Galley entries (R284 to R291) -/

/-- Whether a new entry of a kind may be taken in a slice (R285). -/
def galleyRoom (m : M) (x : Nat) (k : GKind) : Bool :=
  let g := m.coh.galley.filter fun g => sliceOf g.line == x
  let n (k : GKind) := (g.filter fun y => y.kind == k).length
  let rt := n .retain + n .through
  let shared := rt + (n .victim - 8) + (n .mirrorIn - 8)
  decide (g.length < 64) &&
    match k with
    | .retain | .through => decide (shared < 48)
    | .victim => decide (n .victim < 8) || decide (shared < 48)
    | .mirrorIn => decide (n .mirrorIn < 8) || decide (shared < 48)
/-- The lowest entry number of a slice that is free. -/
def freeSlot (m : M) (x : Nat) : Nat :=
  ((List.range 64).find? fun k => !(m.coh.galley.any fun g => sliceOf g.line == x && g.slot == k)).getD 0

/-- Checks the words of an entry as they are used: an uncorrectable one poisons the line (Table 10.9). -/
def galleyCheck (e : Env) (m : M) (l : Line) : M :=
  match m.galleyOf l with
  | none => m
  | some g =>
    (List.range 16).foldl (fun a w =>
      let (a, r) := readWord e a 3 (sliceOf l) (g.slot * 16 + w)
      if r = 2 then
        notePoison e (poisonCount e (a.updG l fun g => { g with poison := true })) l (g.kind == .mirrorIn)
      else a) m

/-- The words of an entry that a masked write touches. -/
def maskWords (slot : Nat) (mask : Mask) : List Nat :=
  ((List.range 16).filter fun w => mask.extractLsb' (8 * w) 8 != 0).map (slot * 16 + ·)

/-- Answers the waiters of an entry that have reached their end point. -/
def answerReady (e : Env) (m : M) (l : Line) : M :=
  match m.galleyOf l with
  | none => m
  | some g =>
    let ready (w : Waiter) : Bool := w.stage == 2 && w.mtag.isNone
    let m := m.updG l fun g => { g with waiters := g.waiters.filter fun w => !ready w }
    (g.waiters.filter ready).foldl (endPoint e (sliceOf l)) m

/-- The write that decides the kind's end is under way: the array write, or the memory write (Table 6.4). -/
def GEntry.writing (g : GEntry) : Bool :=
  match g.kind with
  | .retain | .mirrorIn => g.daBusy
  | .through | .victim => g.memBusy
/-- The kind that the newest write of an entry asked for. -/
def GEntry.wanted (g : GEntry) : GKind := g.nextKind.getD g.kind
/-- An entry takes another kind, once its outstanding write is complete (R286). -/
def GEntry.want (g : GEntry) (k : GKind) : GEntry :=
  if g.kind == k then { g with nextKind := none }
  else if g.writing then { g with nextKind := some k } else { g with kind := k, nextKind := none }
/-- The outstanding write of the present kind is complete. -/
def GEntry.settled (g : GEntry) : GEntry := { g with kind := g.wanted, nextKind := none }

/-- Issues the writes an entry asks for, each once the one before it is complete (R286, R287, R290): an array write follows the fill that
waits in fill staging and the read of the rest of its codewords. -/
def pumpG (e : Env) (m : M) (l : Line) : M :=
  match m.galleyOf l with
  | none => m
  | some g =>
    let da := g.daAgain && !g.daBusy && !g.loading && !g.rmw && !(m.coh.fills.any fun f => f.line == l)
    let mem := g.memAgain && !g.memBusy && !g.loading && !g.mirFirst
    if !da && !mem then m
    else
      let m := m.updG l fun g => { g with
        acks := if da then g.acks.map fun a => (a.1, max a.2 1) else g.acks
        daBusy := g.daBusy || da, daAgain := g.daAgain && !da, memBusy := g.memBusy || mem, memAgain := g.memAgain && !mem
        waiters := g.waiters.map fun w => if w.stage == 0 && (if w.mem then mem else da) then { w with stage := 1 } else w }
      let m := if da then knock e m (dacIsland (dacOf e.fuse.variant l)) else m
      if mem then
        let m := if g.kind == .victim then count e m (sliceOf l) 0x12 1 none else m
        (memIssue e m g.memPort ⟨0, l, .galley, true, g.mask == fullMask, g.mask, g.data, g.poison, none, none⟩).1
      else m

/-- A Pending sector of a mirror folio under evacuation becomes Invalid when its array write completes (R742). -/
def clearEvacMirror (e : Env) (m : M) (l : Line) : M :=
  (List.range 16).foldl (fun m w =>
    let k := tagKey e.fuse.variant l w
    let t := m.tagAt k
    if t.tag == tagOf l && t.pa12 == pa12 l && t.mirrorFolio && t.evac then putTag e m k (t.setSector (lineIndex l) 0) else m) m

/-- What a holder answers once its array writes of a line are complete (R59, R742, Table 11.8). -/
def answerMirror (e : Env) (m : M) (l : Line) : M :=
  match m.galleyOf l with
  | none => m
  | some g =>
    let ok := (findTag e m l true).isSome && !dacDown e m l
    let m := if ok then m else clearEvacMirror e (setSector e m l true 0) l
    let m := (g.acks.filter (·.2 == 1)).foldl (fun m a => sendCkl e m (if ok then .mirAck a.1 else .mirLost a.1 l)) m
    m.updG l fun g => { g with acks := g.acks.filter (·.2 != 1) }

/-- A Dirty line has been written back: DRAIN_STATUS, DRAIN_START, the FLUSH_RANGEs that found it and the drain of a warm reset count it
(R635, R638, R642, Table 20.4). -/
def lineCleaned (m : M) (l : Line) (poison : Bool) : M :=
  let m := m.setBoot fun b => { b with warm := b.warm.map fun w => if w.draining then { w with written := w.written + 1 } else w }
  let m := if m.modeBit mDrain then m.setMode fun x => { x with drainedSince := x.drainedSince + 1 } else m
  let m := m.setMir fun r => { r with quotaWait := r.quotaWait.map fun x => (x.1, x.2.erase l) }
  -- of several FLUSH_RANGEs that have found the line, the oldest has written it back
  let flusher := ((m.jpc.accepted.find? fun a => a.opcode == 0x0400 && a.todo.contains l).map (·.id)).getD 0
  m.setJpc fun j => { j with accepted := j.accepted.map fun a =>
    if a.opcode == 0x0402 then { a with counts := listAdd a.counts [1, 0, 0, 0] }
    else if a.opcode == 0x0400 && a.todo.contains l then
      { a with todo := a.todo.erase l, counts := if a.id = flusher then listAdd a.counts [1, bit poison, 0, 0] else a.counts }
    else a }

/-- A line that was served from its entry under R141 is recorded Clean when the entry's memory write is acknowledged. -/
def refillLine (e : Env) (m : M) (g : GEntry) : M :=
  let k := tagKey e.fuse.variant g.line g.refill
  let t := m.tagAt k
  if 16 ≤ g.refill || dacDown e m g.line || t.evac then m
  else
    let m := writeLineArray e m g.line g.refill g.data g.poison
    putTag e m k { t.setSector (lineIndex g.line) 1 with poisonAny := t.poisonAny || g.poison }

/-- The entry's work is done: the sector's new state, the mirror's answer or release, and the entry is free (Tables 3.5, 6.4). -/
def releaseG (e : Env) (m : M) (g : GEntry) : M :=
  let l := g.line
  let m := m.setCoh fun c => { c with galley := c.galley.filter fun y => y.line ≠ l }
  let m := g.waiters.foldl (endPoint e (sliceOf l)) m
  let was := sectorOf e m l
  let m := match g.kind with
    | .retain =>
      if !g.vers.isSome || was != 2 then m
      else if m.modeBit mMirror then setSector e m l false 3
      else mirRelease e m l
    | .through => if 1 ≤ was then setSector e m l false 1 else refillLine e m g
    | .victim =>
      let m := if 2 ≤ g.base then lineCleaned m l g.poison else m
      if was == 0 then refillLine e m g
      else if g.clean && 2 ≤ was then setSector e m l false (if dacDown e m l then 0 else 1) else m
    | .mirrorIn => if (findTag e m l true).isSome && !dacDown e m l then setSector e m l true 3 else m
  let m := if (g.kind == .victim || g.kind == .through) && (2 ≤ was || 2 ≤ g.base) && sectorOf e m l < 2 then mirRelease e m l
    else m
  repin e m l

/-- Releases an entry whose last write is complete and which awaits nothing (Table 6.4). -/
def finishG (e : Env) (m : M) (l : Line) : M :=
  let m := answerReady e (pumpG e m l) l
  match m.galleyOf l with
  | none => m
  | some g =>
    if g.loading || g.rmw || g.daBusy || g.memBusy || g.daAgain || g.memAgain || g.mirWait || g.waiters.any (·.mtag.isSome) then m
    else releaseG e m g

/-- The fields of a write that enters a galley entry; `mir` says that the primary mirrors it (R521). -/
structure GPut where
  kind : GKind
  data : Data
  mask : Mask
  poison : Bool
  memPort : MPort
  da : Bool
  mem : Bool
  waiters : List Waiter
  mir : Bool := false

/-- Whether an earlier request of the line's slice waits for a galley entry: those that wait take entries in order of arrival (R288). -/
def waitAhead (m : M) (l : Line) : Bool :=
  (m.coh.txns.takeWhile fun t => !(t.galleyWait && t.req.line == l)).any fun t => t.galleyWait && sliceOf t.req.line == sliceOf l

/-- A write merges into the line's entry (R286).  A memory write that is not issued yet keeps its port: it carries the bytes of the folio
that asked for it (R124).  A write that is not mirrored leaves the line without a mirrored newest version (R126). -/
def mergeEntry (g : GEntry) (p : GPut) (whole : Bool) : GEntry :=
  ({ g with
    data := mergeBytes g.data p.data p.mask, mask := g.mask ||| p.mask
    known := if whole then fullMask else g.known ||| p.mask
    poison := if p.mask == fullMask then p.poison else g.poison || p.poison
    loading := g.loading && p.mask != fullMask, memPort := if g.memAgain then g.memPort else p.memPort
    daAgain := g.daAgain || p.da, memAgain := g.memAgain || p.mem
    mirFirst := p.mir && (g.mirFirst || p.kind == .through), mirWait := p.mir && (g.mirWait || p.kind == .through)
    vers := if p.mir then g.vers else none, clean := g.clean && p.kind != .retain
    refill := if p.kind == .retain then 16 else g.refill
    waiters := g.waiters ++ p.waiters } : GEntry).want p.kind

/-- A write enters the galley: it merges into the line's entry or takes one, if there is room, none waits before it and no older version of
the line waits in fill staging (R286 to R288).  The writes it asks for are not issued yet.  A poisoned write of a valid sector needs no
other bytes (R468). -/
def galleyPut (e : Env) (m : M) (l : Line) (p : GPut) : Option M :=
  let valid := sectorOf e m l != 0
  match m.galleyOf l with
  | some g =>
    let m := m.updG l fun g => mergeEntry g p (p.poison && valid)
    some (galleyCheck e (wordsWritten e m 3 (sliceOf l) (maskWords g.slot p.mask)) l)
  | none =>
    let ordered := p.kind == .retain || p.kind == .through
    if !galleyRoom m (sliceOf l) p.kind || m.coh.staging.any (fun g => g.line == l) || (ordered && waitAhead m l) then none
    else
      let s := freeSlot m (sliceOf l)
      let fill := if p.kind == .mirrorIn then none else fillOf e m l
      let base := (fill.map (·.data)).getD 0
      let g : GEntry := ⟨l, s, p.kind, mergeBytes base p.data p.mask, p.mask,
        p.poison || (p.mask != fullMask && fill.any (·.poison)), p.memPort, false, false, p.da, false, p.mem,
        false, p.kind == .through && p.mir, p.kind == .through && p.mir, none, p.waiters, [], false, 16, sectorOf e m l, none,
        if fill.isSome || (p.poison && valid) then fullMask else p.mask, false, 16⟩
      let m := repin e (m.setCoh fun c => { c with galley := c.galley ++ [g] }) l
      some (galleyCheck e (wordsWritten e m 3 (sliceOf l) (maskWords s p.mask)) l)

/-- Asks for the line's data from the array, to complete an entry or a message. -/
def queueRead (e : Env) (m : M) (l : Line) (use : DaUse) (w sector : Nat) : M :=
  let k (h : Nat) := (cwPlace e l w h).1 * 67108864 + (cwPlace e l w h).2
  let m := knock e m (dacIsland (dacOf e.fuse.variant l))
  m.setCoh fun c => { c with daReads := c.daReads ++ [⟨l, use, w, sector, m.cw (k 0), m.cw (k 1)⟩] }

/-- A write of some bytes over a valid sector leaves its entry without the line's other bytes: those of a write-through over Dirty are
read before the whole line is written to memory (R127), those of any other masked write for its codewords (R482). -/
def completeWrite (e : Env) (m : M) (l : Line) (was : Nat) : M :=
  match m.galleyOf l with
  | none => m
  | some g =>
    if was = 0 || g.known == fullMask || g.loading then m
    else
      let w := (findTag e m l false).getD 0
      let whole := g.wanted == .through && decide (2 ≤ was)
      let m' := m.updG l fun g => if whole then { g with loading := true } else { g with rmw := true }
      if g.rmw then m' else queueRead e m' l (if whole then .load else .rmw) w was

/-- A VICTIM entry for a Dirty line that is to be written to memory (R128, Table 6.4): it takes the data of an entry that holds the
line, or waits for the array.  A line that finds no entry waits in fill staging (R49, R288). -/
def writeback (e : Env) (m : M) (l : Line) (w sector : Nat) (port : MPort) (clean : Bool) (ws : List Waiter) : M :=
  match m.galleyOf l with
  | some g =>
    let partly := g.known != fullMask && !g.loading
    let m := m.updG l fun g => ({ g with
      memAgain := true, clean := clean, mirWait := false, mirFirst := false, vers := none, memPort := port
      mask := if g.known == fullMask then fullMask else g.mask
      loading := g.loading || partly, base := max g.base sector
      waiters := (g.waiters.map fun x => if x.mtag.isSome then { x with mtag := none, stage := 0, mem := true } else x) ++ ws } :
        GEntry).want .victim
    let m := if partly && !g.rmw then queueRead e m l .load w sector else m
    finishG e m l
  | none =>
    let g : GEntry := ⟨l, freeSlot m (sliceOf l), .victim, 0, 0, false, port, true, false, false, false, true, false, false, false,
      none, ws, [], clean, 16, sector, none, 0, false, w⟩
    let m := queueRead e m l .load w sector
    if galleyRoom m (sliceOf l) .victim then repin e (m.setCoh fun c => { c with galley := c.galley ++ [g] }) l
    else m.setCoh fun c => { c with staging := c.staging ++ [g] }

/-- Writes back a Dirty line of a resident folio; it becomes Clean at the acknowledgement. -/
def cleanLine (e : Env) (m : M) (l : Line) (ws : List Waiter) : M :=
  match findTag e m l false with
  | none => m
  | some w =>
    let t := m.tagAt (tagKey e.fuse.variant l w)
    writeback e m l w (t.sector (lineIndex l)) t.memPort true ws

/-- Whether a write that takes a line out of Dirty is under way already. -/
def writingBack (m : M) (l : Line) : Bool :=
  m.coh.staging.any (·.line == l) || match m.galleyOf l with
    | some g => g.wanted != .retain
    | none => false

/-- Line `k` of the folio of a line. -/
def lineOfFolio (l : Line) (k : Nat) : Line := (l.extractLsb' 5 40 ++ BitVec.ofNat 5 k : BitVec 45)
/-- The line of a tag entry in a slice and set. -/
def tagLine (t : TagEntry) (x k : Nat) : Line :=
  let hi := t.tag
  let top : Line := (hi ++ (0 : BitVec 10) : BitVec 45)
  let s := BitVec.ofNat 4 x ^^^ BitVec.ofNat 4 (sliceOf top)
  (hi ++ s ++ BitVec.ofNat 1 (bit t.pa12) ++ BitVec.ofNat 5 k : BitVec 45)

/-- Writes back every Dirty line of a folio. -/
def cleanFolio (e : Env) (m : M) (l : Line) : M :=
  (List.range 32).foldl (fun a k =>
    if 2 ≤ sectorOf e a (lineOfFolio l k) then cleanLine e a (lineOfFolio l k) [] else a) m

/-- The array read that a lookup of the line started is discarded: the line's newest data is elsewhere now (R44).  A transaction that
waits for it already keeps it. -/
def voidRead (m : M) (l : Line) : M :=
  let mine (t : Txn) : Bool := t.req.line == l && t.phase != .daRead && (t.arrWait || t.arrGot.isSome)
  if !m.coh.txns.any mine then m
  else
    m.setCoh fun c => { c with
      txns := c.txns.map fun t => if mine t then { t with arrWait := false, arrGot := none } else t
      daReads := c.daReads.map fun r => if r.line == l && r.use == .txn then { r with use := .discard } else r }

/-- Writes a line to memory from an entry that holds it, or poisoned where nothing does (R762, Table 10.12). -/
def poisonToMemory (e : Env) (m : M) (l : Line) (port : MPort) (data : Data) (poison : Bool) : M :=
  match galleyPut e m l ⟨.victim, data, fullMask, poison, port, false, true, [], false⟩ with
  | some m => finishG e m l
  | none =>
    m.setCoh fun c => { c with staging := c.staging ++ [⟨l, 0, .victim, data, fullMask, poison, port, false, false, false, false,
      true, false, false, false, none, [], [], false, 16, 2, none, fullMask, false, 16⟩] }

/-- A line that nothing holds any more is recorded poisoned in memory. -/
def poisonLost (e : Env) (m : M) (l : Line) (port : MPort) : M :=
  poisonToMemory e (poisonCount e { m with free := m.free + 2 }) l port (lostData m) true

/-- The memory port of a line that the device may hold no folio of: that of the resident folio, or that of its region, and MPA where no
region maps it (log entry 131). -/
def linePort (e : Env) (m : M) (l : Line) : MPort :=
  match findTag e m l false with
  | some w => (m.tagAt (tagKey e.fuse.variant l w)).memPort
  | none => (ratAttrs e.cfg.rat (folioOf l).toNat).memPort

/-- Records a line poisoned in the copy that the device holds (R759, R761).  A line that it holds no copy of is written to memory
poisoned, as R762 and Table 10.12 write lines that are lost (log entry 131). -/
def poisonLine (e : Env) (m : M) (l : Line) : M :=
  let m := voidRead m l
  let mark (g : GEntry) : GEntry := if g.line == l then { g with poison := true } else g
  match m.galleyOf l, findTag e m l false with
  | some g, w =>
    if g.known == 0 && !g.loading && sectorOf e m l = 0 then poisonLost e m l (linePort e m l)
    else
      let m := (poisonCount e m).setCoh fun c => { c with galley := c.galley.map mark }
      if w.isSome then notePoison e m l false else m
  | none, w =>
    if m.coh.staging.any fun g => g.line == l then (poisonCount e m).setCoh fun c => { c with staging := c.staging.map mark }
    else if (fillOf e m l).isSome then
      let m := (poisonCount e m).setCoh fun c => { c with fills := c.fills.map fun f => if f.line == l then { f with poison := true } else f }
      notePoison e m l false
    else
      match w with
      | none => poisonLost e m l (linePort e m l)
      | some w =>
        if sectorOf e m l = 0 then poisonLost e m l (linePort e m l)
        else
          let k (h : Nat) := (cwPlace e l w h).1 * 67108864 + (cwPlace e l w h).2
          let m := poisonCount e m
          let m := writeLineArray e m l w (joinHalves (m.cw (k 0)).data (m.cw (k 1)).data) true
          notePoison e m l false

/-- A folio leaves its way as a victim (R128, R129): Dirty lines go to VICTIM entries, clean lines are dropped. -/
def evictFolio (e : Env) (m : M) (x set w : Nat) : M :=
  let k := (x * 32768 + set) * 16 + w
  let t := m.tagAt k
  -- fill data that waits for this way goes nowhere any more
  let m := m.setCoh fun c => { c with
    fills := c.fills.filter fun f => !(f.way == w && sliceOf f.line == x && setOf e.fuse.variant f.line == set) }
  if t.isEmpty then m
  else
    (List.range 32).foldl (fun a i =>
      if 2 ≤ t.sector i then writeback e a (tagLine t x i) w (t.sector i) t.memPort false [] else a) m

/-- Allocates a folio for a line (R136): the way, the victim's handling and the new entry, or none (R133). -/
def allocate (e : Env) (m : M) (l : Line) (at_ : Attrs) (age : Nat) (agent : Agent) : M × Option Nat :=
  match chooseWay e m l false with
  | (m, none) => (count e m (sliceOf l) 5 1 (some agent), none)
  | (m, some w) =>
    let m := evictFolio e m (sliceOf l) (setOf e.fuse.variant l) w
    let pin := m.coh.galley.any fun g => folioOf g.line == folioOf l
    let t : TagEntry := ⟨0, tagOf l, pa12 l, BitVec.ofNat 3 age, false, false, false, pin, false, at_.cls, at_.memPort⟩
    (putTag e m (tagKey e.fuse.variant l w) t, some w)

end Sys2Proof.Machine
end

