-- ==== Sys2Proof/Machine/Directory.lean ====
section
/-!
DEFINITION. The directory and the reservations: entries, lost sets, causes of broadcast, snoops and their answers' bookkeeping,
tag-entry errors, placement of atomics, reservation slots and the starvation queue.
-/

namespace Sys2Proof.Machine

open Sys2Proof

/-! ### Entries (R168 to R172) -/

def DirEntry.live (d : DirEntry) : Bool := d.st != .I || d.txnOpen || d.fillReserved || d.grantPending || d.recoverHold
def findDir (m : M) (l : Line) : Option Nat :=
  (List.range 16).find? fun w => (m.dirAt (dirKey l w)).live && (m.dirAt (dirKey l w)).lineTag == l
/-- The entry of a line, or an empty one. -/
def dirOf (m : M) (l : Line) : DirEntry :=
  match findDir m l with
  | some w => m.dirAt (dirKey l w)
  | none => .empty
/-- In an entry in S, a fenced agent's bit is 0 (R211); an entry in S that marks nobody is in I. -/
def DirEntry.unfenced (e : Env) (m : M) (d : DirEntry) : DirEntry :=
  if d.st != .S then d
  else
    let p := d.presence &&& ~~~(fenceMask e m)
    if p == 0 then { d with st := .I, presence := 0 } else { d with presence := p }
/-- Rewrites a line's entry; one left in I with nothing open holds no entry (R170). -/
def setDirOf (e : Env) (m : M) (l : Line) (f : DirEntry → DirEntry) : M :=
  match findDir m l with
  | none => m
  | some w =>
    let d := (f (m.dirAt (dirKey l w))).unfenced e m
    putDir e m (dirKey l w) (if d.live then { d with ownerValid := d.st == .E || d.st == .M } else .empty)
def DirEntry.owner (d : DirEntry) : Option Agent :=
  if d.st == .E || d.st == .M then
    ((List.range 64).find? fun a => d.presence.getLsbD a).map fun a => BitVec.ofNat 6 a
  else none
/-- The agents that presence marks. -/
def marked (p : BitVec 64) : List Agent := ((List.range 64).filter fun a => p.getLsbD a).map fun a => BitVec.ofNat 6 a

/-- An entry is destroyed (R172): the way is I, the set is lost, and an open transaction goes on without the entry. -/
def loseDirSet (e : Env) (m : M) (x set : Nat) : M :=
  let key := x * 8192 + set
  let m := m.setCoh fun c => { c with lost := if c.lost.contains key then c.lost else c.lost ++ [key] }
  log e m 0x0201 x (BitVec.ofNat 32 x) (BitVec.ofNat 32 set) 0
def destroyDir (e : Env) (m : M) (key : Nat) : M :=
  let m := m.setDir key .empty
  let loses (t : Txn) : Txn := if decide (t.way < 16) && dirKey t.req.line t.way == key then { t with way := 16 } else t
  let m := m.setCoh fun c => { c with txns := c.txns.map loses }
  loseDirSet e m (key / 131072) (key / 16 % 8192)

/-- An entry in E or M that names no owner, or does not mark exactly one agent (R171). -/
def DirEntry.broken (d : DirEntry) : Bool := (d.st == .E || d.st == .M) && (!d.ownerValid || popCount d.presence != 1)

/-- A directory lookup reads the words of its set; an uncorrectable word, or an entry that R171 takes as one, destroys its entry. -/
def dirCheck (e : Env) (m : M) (l : Line) : M :=
  (List.range 16).foldl (fun a w =>
    let k := dirKey l w
    let (a, r0) := readWord e a 2 (sliceOf l) (k % 131072 * 2)
    let (a, r1) := readWord e a 2 (sliceOf l) (k % 131072 * 2 + 1)
    if r0 = 2 || r1 = 2 || (a.dirAt k).broken then destroyDir e a k else a) m

/-! ### Tag-entry errors (R762) -/

/-- A line whose mirror copy is to be fetched and written to memory: an entry that waits for the MIR_DATA (Table 11.8). `clean` says
that the sector changes at the acknowledgement. -/
def fetchToMemory (e : Env) (m : M) (l : Line) (port : MPort) (clean : Bool) : M :=
  match takeMtag m l true with
  | none => poisonLost e m l port
  | some (m, t) =>
    let m := sendCkl e (bump e m rMirFetch 1) (.mirFetch t l)
    let g : GEntry := ⟨l, freeSlot m (sliceOf l), .victim, 0, 0, false, port, true, false, false, false, true, false, false, false,
      none, [], [], clean, 16, 3, none, 0, false, 16⟩
    if galleyRoom m (sliceOf l) .victim then repin e (m.setCoh fun c => { c with galley := c.galley ++ [g] }) l
    else m.setCoh fun c => { c with staging := c.staging ++ [g] }

/-- Whether a MIR_FETCH can be sent now. -/
def canFetch (m : M) : Bool := m.twin.st == .paired && (m.link .ckl).st == .active

/-- The action on an uncorrectable tag word (R762). -/
def tagUe (e : Env) (m : M) (key : Nat) (bad1 : Bool) : M :=
  let t := m.tagAt key
  let x := key / 524288
  let sw := BitVec.ofNat 32 (key % 524288)
  let l0 (k : Nat) := tagLine t x k
  let m := pushSfr e m x 3 0 0 0 (key % 524288)
  if !bad1 && t.mirrorFolio then
    let m := (List.range 32).foldl (fun a k => sendCkl e a (.mirLost 0 (l0 k))) m
    log e (m.setTag key .empty) 0x0503 x (BitVec.ofNat 32 x) sw 0
  else if !bad1 then
    let held (a : M) (k : Nat) : Bool := (a.galleyOf (l0 k)).isSome
    let fetch (k : Nat) : Bool := t.sector k == 3 && canFetch m
    let lines := (List.range 32).filter fun k => !held m k && !fetch k
    let m := (List.range 32).foldl (fun a k =>
      if held a k then writeback e a (l0 k) (key % 16) (t.sector k) t.memPort false []
      else if fetch k then fetchToMemory e a (l0 k) t.memPort false
      else poisonLost e a (l0 k) t.memPort) m
    log e (m.setTag key .empty) 0x0503 x (BitVec.ofNat 32 x) sw (BitVec.ofNat 64 lines.length)
  else if t.dirtyCount = 0 then log e (m.setTag key .empty) 0x0503 x (BitVec.ofNat 32 x) sw 0
  else
    let m := (m.setTag key .empty).setErr fun r => { r with unnamed := true }
    log e m 0x0504 x (BitVec.ofNat 32 x) sw 0

/-- A tag lookup reads the words of its set. -/
def tagCheck (e : Env) (m : M) (l : Line) : M :=
  let m := countLookup e m (sliceOf l)
  if m.coh.bad.isEmpty then m
  else
    (List.range 16).foldl (fun a w =>
      let k := tagKey e.fuse.variant l w
      let (a, r0) := readWord e a 1 (sliceOf l) (k % 524288 * 2)
      let (a, r1) := readWord e a 1 (sliceOf l) (k % 524288 * 2 + 1)
      if r0 = 2 || r1 = 2 then tagUe e a k (r1 = 2) else a) m

/-! ### Broadcast (R200, Table 4.5) -/

/-- Whether the device serves an adopted side: ADOPTED, or an attempt that started there (Table 11.4). -/
def adoptedNow (m : M) : Bool :=
  match m.twin.st with
  | .adopted => true
  | .hello | .shed => m.twin.from_ == .adopted
  | _ => false
/-- Whether Table 4.5 marks the line's entry not exact: a lost set, or an adopted side before its rebuild is declared done. -/
def inexact (m : M) (l : Line) : Bool :=
  m.coh.lost.contains (lostKey l) || (m.twin.rebuildPending && !ownSide m l && adoptedNow m)
def broadcasts (m : M) (l : Line) : Bool :=
  m.modeBit mBroadcast || m.proof.dirLogic.contains (sliceOf l) || inexact m l

/-! ### Fenced agents, ports and violations of a request -/

def portUp (m : M) (p : HPort) : Bool := (m.link p.lnk).st == .active
def Op.code : Op → Nat
  | .rdShared => 0x01 | .rdOwn => 0x02 | .rdOnce => 0x03 | .rdNt => 0x04 | .rsvLd => 0x05
  | .wrLine => 0x08 | .wrPart => 0x09 | .wrNt => 0x0A | .cndSt => 0x0B | .evictClean => 0x0C | .evictDirty => 0x0D
  | .atom => 0x10 | .flushLine => 0x14 | .invalLine => 0x15 | .barrier => 0x16 | .cfgRd => 0x18 | .cfgWr => 0x19
  | _ => 0
/-- Requests that agents send to a slice. -/
def Op.host : Op → Bool
  | .stickFlush | .backInval | .recallFlush | .recallInval => false
  | _ => true
/-- Requests that count in a barrier epoch: those whose end point Table 6.2 gives. -/
def Op.writes : Op → Bool
  | .wrLine | .wrPart | .wrNt | .cndSt | .evictDirty | .atom | .flushLine => true
  | _ => false
def Op.isEvict : Op → Bool
  | .evictClean | .evictDirty => true
  | _ => false

/-- Answers a request with ERR (R381): the response, the sample's outcome and the epoch. -/
def errRsp (e : Env) (m : M) (r : Req) (code : Nat) : M :=
  let m := if r.silent then m
    else if r.op == .cfgRd || r.op == .cfgWr then respondCfg e m r.port r.tag (.err r.tag code) false
    else respond e (noteOutcome m r.port r.tag 6) r.port r.tag [.err r.tag code] true
  if r.counted then decEpoch e m r.port r.agent r.epoch else m
/-- Answers ERR and records the violation 0x40 + code (R425). -/
def errViol (e : Env) (m : M) (r : Req) (code : Nat) (counted : Bool) : M :=
  violate e (errRsp e m r code) r.port.lnk (0x40 + code) (some r.agent) r.tag r.op.code counted true

/-! ### Reservations (R249 to R261) -/

def M.slot (m : M) (x k : Nat) : RsvSlot := Tab.get (fun _ => .empty) m.coh.rsv (x * 8 + k)
def M.setSlot (m : M) (x k : Nat) (s : RsvSlot) : M :=
  m.setCoh fun c => { c with rsv := Tab.put (fun _ => .empty) c.rsv (x * 8 + k) s }
def M.starve (m : M) (x : Nat) : List (Agent × Line × Nat) := Tab.get (fun _ => []) m.coh.starve x
/-- Sets a slice's starvation queue; an agent that comes to the head starts its 4 µs (R259). -/
def M.setStarve (m : M) (x : Nat) (q : List (Agent × Line × Nat)) : M :=
  let was := (m.starve x).head?.map (·.1)
  let q := match q with
    | (a, l, t) :: rest => (a, l, if was = some a then t else m.now) :: rest
    | [] => []
  m.setCoh fun c => { c with starve := Tab.put (fun _ => []) c.starve x q }
/-- An agent leaves the starvation queue. -/
def leaveStarve (m : M) (x : Nat) (a : Agent) : M :=
  if (m.starve x).any fun y => y.1 == a then m.setStarve x ((m.starve x).filter fun y => y.1 ≠ a) else m
/-- Clears one slot; the end of a guard takes its agent out of the queue (R260). -/
def clearSlot (m : M) (x k : Nat) : M :=
  let s := m.slot x k
  if !s.armed then m
  else
    let m := m.setSlot x k .empty
    if s.guarded then leaveStarve m x s.agent else m
/-- Clears the slots of a slice that `p` names; `all` is false for the events that a guard holds back (R260). -/
def clearSlots (m : M) (x : Nat) (all : Bool) (p : RsvSlot → Bool) : M :=
  (List.range 8).foldl (fun a k =>
    let s := a.slot x k
    if s.armed && p s && (all || !s.guarded) then clearSlot a x k else a) m
def guardOn (m : M) (l : Line) : Option Agent :=
  ((List.range 8).map (m.slot (sliceOf l))).findSome? fun s => if s.armed && s.guarded && s.line == l then some s.agent else none
/-- Whether an agent holds an armed slot on a line (R254). -/
def hasSlot (m : M) (a : Agent) (l : Line) : Bool :=
  ((List.range 8).map (m.slot (sliceOf l))).any fun s => s.armed && s.agent == a && s.line == l
/-- The slot armed longest ago among those that `p` holds of. -/
def oldestSlot (m : M) (x : Nat) (p : RsvSlot → Bool) : Option (Nat × RsvSlot) :=
  (((List.range 8).map fun k => (k, m.slot x k)).filter fun s => p s.2).foldl (fun best s =>
    match best with
    | none => some s
    | some b => if s.2.tick < b.2.tick then some s else some b) none
/-- The slot that an RSV_LD arms (R252). -/
def chooseSlot (m : M) (x : Nat) (a : Agent) (guarded : Bool) : Option Nat :=
  match (List.range 8).find? fun k => (m.slot x k).armed && (m.slot x k).agent == a with
  | some k => some k
  | none =>
    match (List.range 8).find? fun k => !(m.slot x k).armed with
    | some k => some k
    | none =>
      match oldestSlot m x (fun s => !guarded || !s.guarded) with
      | some (k, s) => if guarded || (!s.guarded && s.tick + 100 < m.now) then some k else none
      | none => none
/-- An RSV_LD answered GRANT_S arms a slot, guarded when its agent and line are at the head of the queue (R249, R259). -/
def armSlot (m : M) (a : Agent) (l : Line) : M :=
  let x := sliceOf l
  let atHead := match m.starve x with
    | (b, k, _) :: _ => b == a && k == l
    | [] => false
  match chooseSlot m x a atHead with
  | none => m
  | some k => m.setSlot x k ⟨a, l, true, m.now, atHead, leftAt m (agentPort a).lnk⟩
/-- What an RSV_LD's answer GRANT_E or ERR does to the queue (R259). -/
def rsvUnarmed (m : M) (a : Agent) (l : Line) : M :=
  match m.starve (sliceOf l) with
  | (b, k, _) :: _ => if b == a && k == l then leaveStarve m (sliceOf l) a else m
  | [] => m
/-- A port event on an agent's port, or its fencing: its slots, its queue entries and its guards (Table 5.6, Table 5.7). -/
def dropReservations (m : M) (p : Agent → Bool) : M :=
  (List.range 16).foldl (fun a x =>
    let a := clearSlots a x true fun s => p s.agent
    if (a.starve x).any fun y => p y.1 then a.setStarve x ((a.starve x).filter fun y => !p y.1) else a) m

/-! ### Snoops (R178, R197, R203, R211) -/

/-- Sends one snoop and records it; a SNP_INV or SNP_FETCH_INV clears reservations (Table 5.6). -/
def sendSnoop (e : Env) (m : M) (l : Line) (kind : SnpKind) (p : HPort) (a : Agent) (bcast owner : Bool) : M × Snp :=
  let q := m.port p
  let t := freeTag q.snpTags 4096 q.snpNext
  let m := m.setPort p { q with snpTags := t :: q.snpTags, snpNext := t + 1 }
  let m := if kind = .share then m
    else clearSlots m (sliceOf l) true fun s => s.line == l && (if bcast then agentPort s.agent = p else s.agent == a)
  let m := count e m (sliceOf l) (if bcast then 8 else 7) 1 none
  let m := send e m p.lnk [.snp kind t a bcast l]
  (m, ⟨p, t, a, bcast, kind, owner, leftAt m p.lnk, none, false, false, []⟩)

/-- The port's agent field of a broadcast snoop (Table 8.4). -/
def bcastAgent (p : HPort) : Agent := if p = .hpb then 0x20 else 0

/-- Frees the tag of a snoop. -/
def freeSnp (m : M) (s : Snp) : M := m.setPort s.port { m.port s.port with snpTags := (m.port s.port).snpTags.erase s.tag }

/-! ### Placement of atomics (R227 to R235) -/

/-- place of R227. -/
def placeFar (e : Env) (m : M) (r : Req) : Bool :=
  let pol := (e.cfg.appPolicy.toNat / 4 ^ r.port.n) % 4
  let hints := e.cfg.appPolicy.getLsbD (4 + r.port.n)
  let x := sliceOf r.line
  if !e.fuse.variant.far || !m.modeBit mFar || m.proof.aluNear.contains x || pol = 1 then false
  else if pol = 2 then true
  else if hints && atomHint r.opf = 1 then false
  else if hints && atomHint r.opf = 2 then true
  else 2 ≤ (Tab.get (fun _ => (0 : BitVec 2)) m.coh.predictor (x * 256 + appIndex r.line)).toNat

/-- Training at each ATOM (Table 5.3, R233). -/
def train (e : Env) (m : M) (r : Req) (far contended : Bool) : M :=
  if !e.fuse.variant.far then m
  else
    let x := sliceOf r.line
    let k := x * 256 + appIndex r.line
    let c := (Tab.get (fun _ => (0 : BitVec 2)) m.coh.predictor k).toNat
    let hist := Tab.get (fun _ => []) m.coh.history x
    let was := (hist.find? fun h => h.1 == r.line).map (·.2)
    let up := min (c + 1) 3
    let new := if contended then up
      else if !far then c - 1
      else match was with
        | some a => if a == r.agent then c - 1 else up
        | none => c
    let hist := if far then ((r.line, r.agent) :: hist.filter fun h => h.1 ≠ r.line).take 16 else hist
    m.setCoh fun y => { y with
      predictor := Tab.put (fun _ => 0) y.predictor k (BitVec.ofNat 2 new)
      history := if far then Tab.put (fun _ => []) y.history x hist else y.history }

end Sys2Proof.Machine
end

