-- ==== Sys2Proof/Machine/Coherence.lean ====
section
/-!
DEFINITION. The transactions of a slice: lookup, snoops, data, grants, writes, evictions, and what starts when a line is free.
-/

namespace Sys2Proof.Machine

open Sys2Proof

/-! ### Transactions (R192) -/

def M.txnOf (m : M) (l : Line) : Option Txn := m.coh.txns.find? fun t => t.req.line == l && !t.req.op.isEvict
def M.updTxn (m : M) (l : Line) (f : Txn → Txn) : M :=
  m.setCoh fun c => { c with txns := c.txns.map fun t => if t.req.line == l && !t.req.op.isEvict then f t else t }
def newTxn (m : M) (r : Req) (a : Attrs) (ph : Phase) : Txn :=
  ⟨r, ph, a, [], false, true, 0, none, false, .empty, .s, none, false, r.silent, 16, 16, m.modeActive, false, false, m.mode.gen,
    false, false, false, false, false, none⟩
def openTxn (m : M) (t : Txn) : M := m.setCoh fun c => { c with txns := c.txns ++ [t] }

/-- Writes the outcome of a transaction into its entry, if it has one (R188, R201). -/
def putEntry (e : Env) (m : M) (t : Txn) (d : DirEntry) : M :=
  if 16 ≤ t.way then m
  else
    let d := d.unfenced e m
    putDir e m (dirKey t.req.line t.way) (if d.live then { d with ownerValid := d.st == .E || d.st == .M } else .empty)

/-- What a transaction has found of its way and its folio's age is kept with it. -/
def M.saveWay (m : M) (t : Txn) : M :=
  m.updTxn t.req.line fun y => { y with tagWay := t.tagWay, noWay := t.noWay, aged := y.aged || t.aged }

/-- Ends a transaction: its entry's flags clear and its miss-tracking entry is free. -/
def closeTxn (e : Env) (m : M) (l : Line) : M :=
  match m.txnOf l with
  | none => m
  | some t =>
    let m := if 16 ≤ t.way then m
      else
        let d := m.dirAt (dirKey l t.way)
        putEntry e m t { d with txnOpen := false, fillReserved := false, grantPending := false }
    m.setCoh fun c => { c with txns := c.txns.filter fun t => !(t.req.line == l && !t.req.op.isEvict) }

/-! ### Spans (R156 to R160) -/

def M.spans (m : M) (x : Nat) : List Span := Tab.get (fun _ => []) m.coh.spans x
def M.setSpans (m : M) (x : Nat) (s : List Span) : M := m.setCoh fun c => { c with spans := Tab.put (fun _ => []) c.spans x s }
/-- The span that covers a line, which becomes the most recently used one (R159). -/
def findSpan (m : M) (l : Line) : M × Option Attrs :=
  let x := sliceOf l
  let f := (folioOf l).toNat
  match (m.spans x).find? fun s => decide (s.lo ≤ f) && decide (f ≤ s.hi) with
  | none => (m, none)
  | some s => (m.setSpans x (s :: (m.spans x).erase s), some s.attrs)

/-! ### Snoops of Table 4.4 -/

/-- The column of a recorded state: 0 for I, 1 for S, 2 for E or M. -/
def column (s : DirState) : Nat := match s with | .I => 0 | .S => 1 | _ => 2
/-- The snoop that Table 4.4 gives a request in a column. -/
def snoopOf (op : Op) (full : Bool) (col : Nat) : Option SnpKind :=
  if col = 0 then none
  else match op with
    | .rdShared | .rsvLd | .rdOnce | .rdNt => if col = 2 then some .share else none
    | .rdOwn => some (if col = 1 then .inv else .fetchInv)
    | .wrLine | .invalLine | .recallInval => some .inv
    | .wrNt | .stickFlush => some (if col = 1 || full then .inv else .fetchInv)
    | .wrPart | .cndSt | .atom | .flushLine | .backInval | .recallFlush => some (if col = 1 then .inv else .fetchInv)
    | _ => none
/-- The agent whose own presence a request clears; the slice's own work has none. -/
def Req.self (r : Req) : Option Agent := if r.op.host then some r.agent else none

/-- Sends the snoops of a transaction (R188, R200 to R203, R950). -/
def sendSnoops (e : Env) (m : M) (t : Txn) (d : DirEntry) : M × Txn :=
  let full := t.req.mask == fullMask
  if t.bcast then
    match snoopOf t.req.op full (if t.exact then column d.st else 2) with
    | none => (m, t)
    | some k =>
      [HPort.hpa, HPort.hpb].foldl (fun (acc : M × Txn) p =>
        let (m, t) := acc
        if !portUp m p || linkFenced e m p.lnk then (m, { t with poisoned := t.poisoned || !t.exact })
        else
          let own := match d.owner with
            | some a => decide (agentPort a = p)
            | none => false
          let (m, s) := sendSnoop e m t.req.line k p (bcastAgent p) true own
          (m, { t with snoops := t.snoops ++ [s], snooped := true })) (m, t)
  else
    match snoopOf t.req.op full (column d.st) with
    | none => (m, t)
    | some k =>
      let targets := (marked d.presence).filter fun a => !agentFenced e m a
      targets.foldl (fun (acc : M × Txn) a =>
        let (m, t) := acc
        let (m, s) := sendSnoop e m t.req.line k (agentPort a) a false (decide (column d.st = 2))
        (m, { t with snoops := t.snoops ++ [s], snooped := true })) (m, t)

/-- The state that the snoops have produced, without the grantee (R195): the rows of Table 4.4. -/
def settledState (t : Txn) (d : DirEntry) : DirEntry :=
  let share (p : BitVec 64) : DirEntry :=
    if p == 0 then { d with st := .I, presence := 0 } else { d with st := .S, presence := p }
  let col := if t.bcast && !t.exact then 2 else column d.st
  match t.req.op with
  | .rdShared | .rsvLd =>
    if col = 0 then d else share ((if col = 1 then d.presence else t.marks) &&& ~~~(agentBit t.req.agent))
  | .rdOnce | .rdNt =>
    if col = 0 then d else if col = 1 then share d.presence else share t.marks
  | _ => { d with st := .I, presence := 0 }

/-! ### Writes (R143, R240, Table 3.7) -/

/-- Whether a request may allocate a folio or fill a sector at all (R136 to R139, R495). -/
def mayFill (e : Env) (m : M) (t : Txn) : Bool :=
  t.modes.getLsbD mAllocate && (t.attrs.cls == 0 || t.attrs.cls == 1) && !t.noWay && !dacDown e m t.req.line
    && (match findTag e m t.req.line false with
        | some w => !(m.tagAt (tagKey e.fuse.variant t.req.line w)).evac
        | none => true)
def Op.allocates : Op → Bool
  | .rdShared | .rsvLd | .rdOwn | .rdOnce | .wrLine | .wrPart | .cndSt | .evictDirty | .atom => true
  | _ => false
/-- The age that an allocation gives (Table 3.6). -/
def Op.newAge (op : Op) : Nat := if op == .rdOnce then 7 else 6
/-- Whether a hit makes the folio young (Table 3.6). -/
def Op.youngs : Op → Bool
  | .rdShared | .rsvLd | .rdOwn | .wrLine | .wrPart | .cndSt | .atom => true
  | _ => false

/-- Whether a side is being given up, so that its writes are written through (R513, R550). -/
def shedding (m : M) (l : Line) : Bool :=
  (m.twin.st == .shed && !ownSide m l) || (m.twin.st == .releasing && ownSide m l)

/-- Whether a write is retained (R143 to R146, R240, R495, R740). -/
def retains (e : Env) (m : M) (t : Txn) : Bool :=
  let l := t.req.line
  let hit := sectorOf e m l ≠ 0
  let evac := match findTag e m l false with
    | some w => (m.tagAt (tagKey e.fuse.variant l w)).evac
    | none => false
  t.modes.getLsbD mRetain && !t.modes.getLsbD mDrain && (t.attrs.cls == 0 || (t.attrs.cls == 2 && hit))
    && (hit || (mayFill e m t && t.req.op.allocates)) && !(t.req.op == .stickFlush)
    && (!(t.attrs.mirrorReq && t.modes.getLsbD mMirror) || canMirror e m t.modes l t.attrs.mirrorReq)
    && !evac && !dacDown e m l && !shedding m l

/-- A transaction takes the way of its folio for a sector that is to be recorded, allocating the folio if need be; choose_way answers
once, and after NONE the request goes on without allocation (R133, R136). -/
def claimWay (e : Env) (m : M) (t : Txn) : M × Txn :=
  if t.tagWay < 16 || t.noWay then (m, t)
  else
    match findTag e m t.req.line false with
    | some w => (m, { t with tagWay := w })
    | none =>
      match allocate e m t.req.line t.attrs t.req.op.newAge t.req.agent with
      | (m, some w) => (m, { t with tagWay := w, aged := true })
      | (m, none) => (m, { t with noWay := true })
/-- The way of a write that is to be retained, taken before its data is fetched (R133, Table 3.7). -/
def claimRetain (e : Env) (m : M) (t : Txn) : M × Txn :=
  if retains e m t && sectorOf e m t.req.line == 0 then claimWay e m t else (m, t)

/-- Whether a write is answered CMP_EARLY (R55, R61, R272). -/
def earlyOk (t : Txn) (retained : Bool) : Bool :=
  retained && t.attrs.earlyAck && t.attrs.cls != 4 && !(t.attrs.mirrorReq && t.modes.getLsbD mMirror)

/-- The waiters of a request: itself, or the WR_NTs of a stick flush. -/
def waitersOf (t : Txn) (old : Option (BitVec 128)) (poison : Bool) : List Waiter :=
  let w : Waiter := ⟨t.req.port, t.req.tag, t.req.agent, t.req.epoch, false, !t.dropped, old, poison, t.req.op == .cndSt,
    t.req.cmd, 0, none, t.gen, false⟩
  match t.req.op with
  | .stickFlush =>
    t.req.answers.map fun (tag, a, ep, early) =>
      { w with tag := tag, agent := a, epoch := ep, early := early }
  | _ => [w]

/-- Sends CMP_EARLY, or the DATA of a far ATOM, when the galley has accepted a write (R55, R244). -/
def sendEarly (e : Env) (m : M) (ws : List Waiter) : M × List Waiter :=
  ws.foldl (fun (acc : M × List Waiter) w =>
    let (m, out) := acc
    let m := if w.answer then
        respond e m w.port w.tag
          [match w.old with
            | some o => .data w.tag w.poison 1 (o.setWidth 1024)
            | none => if w.ok then .cmp w.tag true else .cmpEarly w.tag] true
      else m
    (m, out ++ [{ w with early := true }])) (m, [])

/-- Makes a folio young, once for a request that hit it (R130, Table 3.6). -/
def touch (e : Env) (m : M) (t : Txn) : M :=
  let aged := match m.txnOf t.req.line with
    | some y => y.aged
    | none => t.aged
  if t.hit && !aged && t.req.op.youngs then
    (updTag e m t.req.line false fun x => { x with age := 0 }).updTxn t.req.line fun y => { y with aged := true }
  else m

/-- The requests that a DEVICE write answers at its memory acknowledgement (R282). -/
def answersOf (t : Txn) : List (Tag × Agent × Nat × Bool) :=
  if t.req.op == .stickFlush then t.req.answers else [(t.req.tag, t.req.agent, t.req.epoch, false)]
/-- A DEVICE write: one memory request with its own mask (R282). -/
def deviceWrite (e : Env) (m : M) (t : Txn) (data : Data) (mask : Mask) (poison : Bool) (as : List (Tag × Agent × Nat × Bool)) : M :=
  (memIssue e (noteOutcome m t.req.port t.req.tag 3) t.attrs.memPort ⟨0, t.req.line, .device, true, mask == fullMask, mask, data, poison, none,
    some { t.req with silent := t.dropped, answers := as }⟩).1

/-- A write enters the galley, retained or written through (R53 to R57, R127, R147); none where no entry is free.  The way of a retained
write is claimed already. -/
def doWrite (e : Env) (m : M) (t : Txn) (data : Data) (mask : Mask) (poison : Bool) (ws : List Waiter) : Option M :=
  let l := t.req.line
  let was := sectorOf e m l
  let resident := findTag e m l false
  let way := if !retains e m t then none else if t.tagWay < 16 then some t.tagWay else resident
  match way with
  | some w =>
    let k := tagKey e.fuse.variant l w
    let port := (m.tagAt k).memPort
    let mir := canMirror e m t.modes l t.attrs.mirrorReq
    match galleyPut e m l ⟨.retain, data, mask, poison, port, true, false, [], mir⟩ with
    | none => none
    | some m =>
      let m := touch e (completeWrite e (voidRead m l) l was) t
      let m := if was = 0 then noteOutcome m t.req.port t.req.tag 1 else m
      let x := m.tagAt k
      let m := putTag e m k { x.setSector (lineIndex l) 2 with poisonAny := x.poisonAny || poison, pinned := true }
      let (m, ws) := if earlyOk t true then sendEarly e m ws else (m, ws)
      let (m, ws) := if mir then
          let (m, tag) := mirSend e (newVersion m l) l data mask poison port
          (m, ws.map fun w => { w with mtag := some tag })
        else (m, ws)
      some (finishG e (m.updG l fun g => { g with waiters := g.waiters ++ ws }) l)
  | none =>
    let port := match resident with
      | some w => (m.tagAt (tagKey e.fuse.variant l w)).memPort
      | none => t.attrs.memPort
    let mir := decide (2 ≤ was) && canMirror e m t.modes l t.attrs.mirrorReq
    match galleyPut e m l ⟨.through, data, mask, poison, port, was != 0, true, ws.map fun w => { w with mem := true }, mir⟩ with
    | none => none
    | some m =>
      let m := completeWrite e (voidRead m l) l was
      let m := if was ≠ 0 then touch e m t else noteOutcome m t.req.port t.req.tag 3
      let m := if poison then notePoison e m l false else m
      let m := if mir then (mirSend e (newVersion m l) l data mask poison port).1 else m
      some (finishG e m l)

/-! ### Data (R43 to R52, R140, R141, R474) -/

/-- Asks the twin for a line that reads UNCORRECTABLE (Table 11.8), if a MIR_FETCH can be sent. -/
def askTwin (e : Env) (m : M) (l : Line) : Option M :=
  if !canFetch m then none
  else (takeMtag m l true).map fun (m, t) => sendCkl e (bump e m rMirFetch 1) (.mirFetch t l)

/-- The line is lost to its own array and recorded poisoned; the array is written poisoned with what was read (R468, R474). -/
def recordLost (e : Env) (m : M) (l : Line) (data : Data) : M :=
  match findTag e m l false with
  | none => m
  | some w =>
    if sectorOf e m l = 0 then m
    else notePoison e (writeLineArray e (poisonCount e m) l w data true) l false

/-- Bytes that the galley holds lie over what the array or memory gave (R45). -/
def overGalley (m : M) (l : Line) (data : Data) (poison : Bool) : Data × Bool :=
  match m.galleyOf l with
  | some g => if g.kind == .mirrorIn then (data, poison) else (mergeBytes data g.data g.known, poison || (g.poison && g.known != 0))
  | none => (data, poison)

/-- Waits for the line to arrive. -/
def await (m : M) (l : Line) (ph : Phase) : M := m.updTxn l fun t => { t with phase := ph }

/-- A line read from memory for a transaction, with a fill where the request allocates (R46, R47, R51).  Answers the poisoned data of a
port that is unusable (Table 8.10). -/
def viaMemory (e : Env) (m : M) (t : Txn) : M × Option (Data × Bool) :=
  let l := t.req.line
  let fills := mayFill e m t && t.req.op.allocates && (!t.far || retains e m t)
  let (m, t) := if fills then claimWay e m t else (m, t)
  let filled := fills && decide (t.tagWay < 16)
  let m := noteOutcome m t.req.port t.req.tag (if filled then 1 else 3)
  let m := await (m.saveWay t) l .memRead
  let port := if filled then (m.tagAt (tagKey e.fuse.variant l t.tagWay)).memPort else t.attrs.memPort
  let (m, now) := memIssue e m port ⟨0, l, .read, false, true, fullMask, 0, false, none, none⟩
  if now then ({ m.updTxn l fun t => { t with tagWay := 16 } with free := m.free + 2 }, some (lostData m, true)) else (m, none)

/-- What the array read of a hit answers (R474): the data with the galley's bytes over it, a fetch from memory or from the twin, or the
line recorded poisoned. -/
def arrayData (e : Env) (m : M) (t : Txn) (r : ArrGot) : M × Option (Data × Bool) :=
  let l := t.req.line
  let m := m.updTxn l fun t => { t with arrGot := none, arrWait := false }
  if !r.ue then (m, some (overGalley m l r.data r.poison))
  else if r.sector = 1 then viaMemory e (if sectorOf e m l = 1 then setSector e m l false 0 else m) t
  else
    match if r.sector = 3 then askTwin e m l else none with
    | some m => (await m l .mirFetch, none)
    | none =>
      let m := recordLost e m l r.data
      (m, some ((overGalley m l r.data true).1, true))

/-- A line served from a galley entry whose folio misses the sector is filled from the entry once memory has acknowledged its write
(R140, R141): the way is held for it.  A far ATOM takes its own way. -/
def refillFrom (e : Env) (m : M) (t : Txn) (g : GEntry) : M :=
  let l := t.req.line
  if sectorOf e m l ≠ 0 || g.refill < 16 || g.wanted == .retain || t.far || !mayFill e m t || !t.req.op.allocates then m
  else
    let (m, t) := claimWay e m t
    let w := t.tagWay
    let m := m.saveWay { t with tagWay := 16 }
    if 16 ≤ w then m
    else
      let k := tagKey e.fuse.variant l w
      let m := m.updG l fun g => { g with refill := w }
      touch e (putTag e m k { m.tagAt k with pinned := true }) t

/-- Reads the line for a transaction: from the galley or fill staging, from the data array, or from memory.  Answers the data where the
device holds it already. -/
def fetchData (e : Env) (m : M) (t : Txn) : M × Option (Data × Bool) :=
  let l := t.req.line
  let sec := sectorOf e m l
  let hit (m : M) : M := if t.snooped || t.phase == .daRead then m else count e m (sliceOf l) 2 1 (some t.req.agent)
  let fromArray (m : M) : M × Option (Data × Bool) :=
    if sec = 0 || dacDown e m l then viaMemory e (voidRead m l) t
    else
      match fillOf e m l, t.arrGot with
      | some f, _ => (hit (voidRead m l), some (f.data, f.poison))
      | none, some r => arrayData e (hit m) t r
      | none, none =>
        let m := await (hit m) l .daRead
        if t.arrWait then (m, none)
        else (queueRead e (m.updTxn l fun t => { t with arrWait := true }) l .txn ((findTag e m l false).getD 0) sec, none)
  let m := noteOutcome m t.req.port t.req.tag 0
  match m.galleyOf l, m.coh.staging.find? fun g => g.line == l with
  | some g, _ =>
    if g.kind == .mirrorIn then fromArray m
    else if g.loading || g.rmw then (await m l .daRead, none)
    else if g.known == fullMask then (refillFrom e (hit (voidRead m l)) t g, some (g.data, g.poison))
    else fromArray m
  | none, some g => if g.loading then (await m l .daRead, none) else (hit m, some (g.data, g.poison))
  | none, none => fromArray m

/-- Sends the grant with its DATA (R189, R195, R370). -/
def sendGrant (e : Env) (m : M) (t : Txn) (data : Data) (poison : Bool) : M :=
  let l := t.req.line
  let kind : GrantKind := match t.req.op with
    | .rdShared | .rsvLd => if t.pre.st == .I then .e else .s
    | _ => .m
  let d := t.pre
  let full : DirEntry := match kind with
    | .s => { d with st := .S, presence := d.presence ||| agentBit t.req.agent }
    | .e => { d with st := .E, presence := agentBit t.req.agent }
    | .m => { d with st := .M, presence := agentBit t.req.agent }
  let m := putEntry e m t { full with lineTag := l, txnOpen := true, grantPending := true, fillReserved := false, recoverHold := false }
  let m := m.updTxn l fun t => { t with phase := .granted, grant := kind, sent := none, tagWay := 16 }
  let m := respond e m t.req.port t.req.tag
    [.grant kind t.req.tag, .data t.req.tag poison 8 data] false
  if t.req.op == .rsvLd then (if kind = .s then armSlot m t.req.agent l else rsvUnarmed m t.req.agent l) else m

/-- A request starts to wait for a galley entry: full_seen of its slice is set (R288). -/
def noteFull (m : M) (l : Line) : M :=
  m.setCoh fun c => { c with galleyFull := if c.galleyFull.contains (sliceOf l) then c.galleyFull else sliceOf l :: c.galleyFull }

/-- The write of a transaction, once its data is whole; without room in the galley it waits (R288).  `whole` is the line that a far
ATOM takes old from (R241); its DATA is marked poisoned where the line is served so (R203). -/
def writeNow (e : Env) (m : M) (t : Txn) (data : Data) (mask : Mask) (poison : Bool) (whole : Option Data) : M :=
  let l := t.req.line
  let ws := waitersOf t (whole.map fun d => BitVec.ofNat 128 (atomOld t.req.opf d)) (poison || t.poisoned)
  if t.attrs.cls == 4 then
    closeTxn e (putEntry e (deviceWrite e m t data mask poison (answersOf t)) t { t.pre with txnOpen := true }) l
  else
    let (m, t) := claimRetain e m t
    let m := m.saveWay t
    let through := !retains e m t
    match doWrite e m t data mask poison ws with
    | none =>
      let m := noteFull m l
      match whole with
      | some d => m.updTxn l fun t => { t with phase := .ready, ownerData := some d, ownerPoison := poison }
      | none => m.updTxn l fun t => { t with
          phase := .galley, req := { t.req with data := data, mask := mask, poison := poison }, ownerData := none }
    | some m =>
      let m := putEntry e m t { t.pre with txnOpen := true }
      if whole.isSome && through && (m.galleyOf l).isSome then m.updTxn l fun t => { t with phase := .memAck, tagWay := 16 }
      else closeTxn e m l

/-- A transaction has its line: a read is answered, an ATOM executes, a partial write merges (R189, R239 to R246, R142).  A line that is
served poisoned (R203) is recorded with its own poison.  A fence ends no transaction that has started, but grants nothing more to its
agent (R211, R433; log entry 69). -/
def dataReady (e : Env) (m : M) (l : Line) (data : Data) (own : Bool) : M :=
  match m.txnOf l with
  | none => m
  | some t =>
    let poison := own || t.poisoned
    let fenced := t.req.op.host && agentFenced e m t.req.agent
    let granted : M :=
      if t.dropped || fenced then
        let m := putEntry e m t { t.pre with txnOpen := true }
        closeTxn e (if t.dropped then m else errRsp e m t.req 4) l
      else sendGrant e m t data poison
    match t.req.op with
    | .rdOnce | .rdNt =>
      let m := putEntry e m t { t.pre with txnOpen := true }
      let m := if t.dropped then m else respond e m t.req.port t.req.tag [.data t.req.tag poison 8 data] true
      closeTxn e m l
    | .wrPart | .cndSt | .wrLine =>
      writeNow e m t (mergeBytes data t.req.data t.req.mask) fullMask (own || t.req.poison) none
    | .rdShared | .rsvLd | .rdOwn => granted
    | .atom =>
      if t.far then
        let (m, t) := claimRetain e m t
        let m := m.saveWay t
        let new := if poison then data else atomApply t.req.opf data t.req.data
        let mask := if retains e m t || poison then fullMask else atomMask t.req.opf
        writeNow e m t new mask own (some data)
      else granted
    | _ => m

/-- Fetches the line and goes on at once where the device holds it. -/
def fetchThen (e : Env) (m : M) (t : Txn) : M :=
  match fetchData e m t with
  | (m, some (d, p)) => dataReady e m t.req.line d p
  | (m, none) => m

/-- The data that an owner returned is handled as its EVICT_DIRTY (R183); false where no galley entry is free. -/
def putOwnerData (e : Env) (m : M) (t : Txn) : M × Bool :=
  match t.ownerData with
  | none => (m, true)
  | some d =>
    let l := t.req.line
    let w : Txn := { t with req := { t.req with op := .evictDirty }, dropped := true }
    if t.attrs.cls == 4 then (deviceWrite e (voidRead m l) w d fullMask t.ownerPoison [], true)
    else
      let (m, w) := claimRetain e m w
      let m := m.saveWay w
      match doWrite e m w d fullMask t.ownerPoison [] with
      | none => (m, false)
      | some m => (m.updTxn l fun t => { t with ownerData := none, tagWay := 16 }, true)

/-- FLUSH_LINE and the recall of a range: the Dirty copy, wherever it is, is written to memory (R191).  Where a write of it is asked for or
under way already, the request ends with that write. -/
def flushNow (e : Env) (m : M) (t : Txn) : M :=
  let l := t.req.line
  let ws := (waitersOf t none false).map fun w => { w with mem := true }
  let m := putEntry e m t { t.pre with txnOpen := true }
  let leaving (g : GEntry) : Bool := g.line == l && (g.memBusy || g.memAgain || g.memHeld)
  let joins := (m.coh.galley ++ m.coh.staging).any leaving && writingBack m l
  if 2 ≤ sectorOf e m l && !joins then closeTxn e (cleanLine e m l ws) l
  else if !(m.coh.galley ++ m.coh.staging).any leaving then closeTxn e (ws.foldl (endPoint e (sliceOf l)) m) l
  else
    let add (g : GEntry) : GEntry :=
      if g.line == l then { g with waiters := g.waiters ++ ws.map fun w => { w with stage := if g.memAgain then 0 else bit g.memBusy } }
      else g
    let m := m.setCoh fun c => { c with galley := c.galley.map add, staging := c.staging.map add }
    closeTxn e m l

/-- INVAL_LINE and the recall of a range: the device's copy is discarded (R125). -/
def invalNow (e : Env) (m : M) (t : Txn) : M :=
  let l := t.req.line
  let m := clearSlots m (sliceOf l) false fun s => s.line == l
  let m := putEntry e m t { t.pre with txnOpen := true }
  let was := sectorOf e m l
  let m := (dropFill m l).updG l fun g =>
    if g.wanted == .retain then { g with mask := 0, known := 0, loading := false, rmw := false, poison := false } else g
  let m := if was ≠ 0 then setSector e m l false 0 else m
  let m := if 2 ≤ was then mirRelease e m l else m
  let m := if t.req.op == .recallInval then
      m.updCmd t.req.cmd fun a => { a with counts := listAdd a.counts [bit (was != 0), bit (decide (2 ≤ was)), 0, 0] }
    else m
  let m := if t.req.op == .invalLine && !t.dropped then respond e m t.req.port t.req.tag [.cmp t.req.tag false] true else m
  closeTxn e m l

/-- Every snoop of the transaction has been answered (R188, R190): the rest of Table 4.4. -/
def resolve (e : Env) (m : M) (l : Line) : M :=
  match m.txnOf l with
  | none => m
  | some t0 =>
    let d := if t0.way < 16 then m.dirAt (dirKey l t0.way) else t0.pre
    let pre := { settledState t0 { d with lineTag := l } with
      txnOpen := false, fillReserved := false, grantPending := false, recoverHold := false }
    let t := { t0 with pre := if t0.way < 16 then pre else { pre with presence := pre.presence } }
    let m := m.updTxn l fun _ => t
    let merge := t.attrs.cls != 4
      && (t.req.op == .wrPart || t.req.op == .cndSt || (t.req.op == .stickFlush && t.req.mask != fullMask))
    match merge, t.ownerData with
    | true, some o =>
      let m := m.updTxn l fun t => { t with ownerData := none }
      writeNow e m { t with ownerData := none } (mergeBytes o t.req.data t.req.mask) fullMask (t.req.poison || t.ownerPoison) none
    | _, owned =>
      let (m, ok) := putOwnerData e m t
      let t := (m.txnOf l).getD t
      if !ok then (noteFull m l).updTxn l fun t => { t with phase := .galley }
      else
        match t.req.op with
        | .rdShared | .rsvLd | .rdOwn | .rdOnce | .rdNt | .atom =>
          match owned with
          | some d => if t.attrs.cls == 4 then dataReady e m l d t.ownerPoison else fetchThen e m t
          | none => fetchThen e m t
        | .wrLine => writeNow e m t t.req.data t.req.mask t.req.poison none
        | .wrPart | .cndSt =>
          let whole := (m.galleyOf l).any fun g => g.known == fullMask
          let (m, t) := if t.attrs.cls == 4 || whole then (m, t) else claimRetain e m t
          let m := m.saveWay t
          if t.attrs.cls != 4 && retains e m t && sectorOf e m l = 0 && !whole then fetchThen e m t
          else writeNow e m t t.req.data t.req.mask t.req.poison none
        | .stickFlush => writeNow e m t t.req.data t.req.mask t.req.poison none
        | .flushLine | .recallFlush => flushNow e m t
        | .invalLine | .recallInval => invalNow e m t
        | _ => closeTxn e (putEntry e m t { t.pre with txnOpen := true }) l

/-! ### The directory at a lookup (R186, R187, R205 to R208, R431) -/

/-- A tracker takes over an entry that leaves the directory (R206, R207). -/
def startTracker (e : Env) (m : M) (d : DirEntry) : M :=
  let l := d.lineTag
  let r : Req := ⟨.backInval, .hpa, 0, 0, l, 0, false, fullMask, 0, true, 0, m.now, 0, [], 0, true, none, false, false⟩
  let bc := broadcasts m l
  let t := { newTxn m r (ratAttrs e.cfg.rat (folioOf l).toNat) .snoop with pre := d, bcast := bc, exact := !inexact m l }
  let m := count e m (sliceOf l) 9 1 none
  let (m, t) := sendSnoops e (openTxn m t) t d
  let m := m.updTxn l fun _ => t
  if t.snoops.isEmpty then resolve e m l else m

/-- Whether an entry may leave the directory: nothing is open on it or on its line (R192, R197, R205). -/
def DirEntry.idle (d : DirEntry) (m : M) : Bool :=
  !d.grantPending && !d.txnOpen && !d.recoverHold && !d.fillReserved && !(d.live && (m.txnOf d.lineTag).isSome)
/-- The entry way that a line's new entry takes (R205): a free one, or a victim. -/
def dirWay (m : M) (l : Line) : Option (Nat × Bool) :=
  let x := Tab.get (fun _ => (0 : BitVec 32)) m.proof.excl (sliceOf l)
  let ok (w : Nat) : Bool := (m.dirAt (dirKey l w)).idle m && !x.getLsbD (16 + w)
  let ways := (List.range 16).filter ok
  match ways.find? fun w => (m.dirAt (dirKey l w)).st == .I with
  | some w => some (w, false)
  | none =>
    let s := (ways.filter fun w => (m.dirAt (dirKey l w)).st == .S).foldl (fun (best : Option (Nat × Nat)) w =>
      let n := popCount (m.dirAt (dirKey l w)).presence
      match best with
      | none => some (w, n)
      | some b => if n < b.2 then some (w, n) else some b) none
    match s with
    | some (w, _) => some (w, true)
    | none => (ways.head?).map fun w => (w, true)

def trackers (m : M) (x : Nat) : Nat :=
  (m.coh.txns.filter fun t => t.req.op == .backInval && sliceOf t.req.line == x).length

/-- Takes a directory way for a line (R205 to R208); otherwise what the request waits for: an eligible way, or a tracker. -/
def takeDirWay (e : Env) (m : M) (l : Line) : M × Nat × Phase :=
  match dirWay m l with
  | none => (m, 16, .way)
  | some (w, false) => (m, w, .way)
  | some (w, true) =>
    if 16 ≤ trackers m (sliceOf l) then (m, 16, .tracker)
    else
      let d := m.dirAt (dirKey l w)
      let d := { d with presence := if d.st == .S then d.presence &&& ~~~(fenceMask e m) else d.presence }
      (startTracker e (m.setDir (dirKey l w) .empty) d, w, .way)

/-- Requests that create an entry (R174). -/
def Op.creates (op : Op) (far : Bool) : Bool :=
  match op with
  | .rdShared | .rdOwn | .rsvLd => true
  | .atom => !far
  | _ => false

/-- Sends the transaction's snoops from its entry, or goes on where it needs none. -/
def snoopThen (e : Env) (m : M) (t : Txn) (d : DirEntry) : M :=
  let l := t.req.line
  let (m, t) := sendSnoops e m t d
  let t := { t with phase := .snoop }
  let m := if t.snooped then noteOutcome m t.req.port t.req.tag 2 else m
  let m := m.updTxn l fun _ => t
  if t.snoops.isEmpty then resolve e m l else m

/-- The transaction has its way, or waits for one. -/
def dirThen (e : Env) (m : M) (t : Txn) (d : DirEntry) : M :=
  let l := t.req.line
  if !(t.req.op.creates t.far) || t.way < 16 then
    let m := if t.way < 16 then
        putDir e m (dirKey l t.way) { d with lineTag := l, txnOpen := true, fillReserved := t.req.op.creates t.far }
      else m
    snoopThen e m { t with pre := { d with lineTag := l } } d
  else
    match takeDirWay e m l with
    | (m, w, wait) =>
      if 16 ≤ w then m.updTxn l fun t => { t with phase := wait }
      else
        let t := { (m.txnOf l).getD t with way := w, pre := { d with lineTag := l } }
        let m := m.updTxn l fun _ => t
        let m := putDir e m (dirKey l w) { d with lineTag := l, txnOpen := true, fillReserved := true }
        snoopThen e m t d
/-- A transaction that waited for a way or a tracker tries again: it has no entry yet. -/
def dirRetry (e : Env) (m : M) (t : Txn) : M := dirThen e m t { DirEntry.empty with lineTag := t.req.line }

/-- Whether a request takes the line's data, so that a tag hit starts the array read at once (R43). -/
def Op.reads : Op → Bool
  | .rdShared | .rsvLd | .rdOwn | .rdOnce | .rdNt | .atom => true
  | _ => false
/-- The array read that a tag hit starts, in parallel with the directory lookup (R43), unless the newest data is in the galley or in fill
staging (R45). -/
def startRead (e : Env) (m : M) (r : Req) : M × Bool :=
  let l := r.line
  let sec := sectorOf e m l
  let elsewhere := (m.galleyOf l).isSome || (m.coh.staging.any fun g => g.line == l) || (fillOf e m l).isSome
  if !r.op.reads || sec = 0 || elsewhere || dacDown e m l then (m, false)
  else (queueRead e m l .txn ((findTag e m l false).getD 0) sec, true)

/-- The directory lookup of a request (R186, R187, R211, R431). -/
def lookupDir (e : Env) (m : M) (r : Req) (a : Attrs) : M :=
  let l := r.line
  let m := dirCheck e m l
  let way := (findDir m l).getD 16
  let d := { (dirOf m l).unfenced e m with lineTag := l }
  let contended := match d.owner with
    | some o => decide (some o ≠ r.self)
    | none => match r.self with
      | some x => d.presence &&& ~~~(agentBit x) != 0
      | none => d.presence != 0
  let far := r.op == .atom && placeFar e m r
  let m := if r.op == .atom then
      let m := train e m r far contended
      let m := noteOutcome (count e m (sliceOf l) (if far then 0xC else 0xB) 1 (some r.agent)) r.port r.tag (if far then 4 else 5)
      if far || !r.counted then m else decEpoch e m r.port r.agent r.epoch
    else m
  let r := if r.op == .atom && !far then { r with counted := false } else r
  let hit := (findTag e m l false).isSome
  let young := sectorOf e m l != 0 && r.op.youngs
  let m := if young then updTag e m l false fun x => { x with age := 0 } else m
  let (m, reading) := startRead e m r
  let t := { newTxn m r a .snoop with
    far := far, way := way, bcast := broadcasts m l, exact := !inexact m l, hit := hit, aged := young, arrWait := reading }
  let m := openTxn m t
  let (m, d, lost) : M × DirEntry × Bool :=
    match d.owner with
    | some o =>
      if some o = r.self then
        (violate e (poisonLine e m l) r.port.lnk 0x30 (some r.agent) r.tag r.op.code true true,
          { d with st := .I, presence := 0 }, true)
      else if agentFenced e m o then
        (log e (poisonLine e m l) 0x0202 (sliceOf l) (o.setWidth 32) 0 (l.setWidth 64), { d with st := .I, presence := 0 }, true)
      else (m, d, false)
    | none => (m, d, false)
  let d := match r.self with
    | some x => if d.st == .S then { d with presence := d.presence &&& ~~~(agentBit x) } else d
    | none => d
  let d := if d.st == .S && d.presence == 0 then { d with st := .I } else d
  dirThen e m { (m.txnOf l).getD t with poisoned := lost } d

/-! ### The slice's checks and class changes (R154, R162, R225, R254, R255) -/

/-- A CND_ST that holds no armed slot fails (R255): CMP with cnd_ok 0, and a place in the starvation queue (R258). -/
def cndFail (e : Env) (m : M) (r : Req) : M :=
  let l := r.line
  let d := dirOf m l
  let m := setDirOf e m l fun x =>
    if d.st == .S then
      let p := x.presence &&& ~~~(agentBit r.agent)
      if p == 0 then { x with st := .I, presence := 0 } else { x with presence := p }
    else x
  let m := if d.owner = some r.agent then
      violate e (poisonLine e (setDirOf e m l fun x => { x with st := .I, presence := 0 }) l) r.port.lnk 0x30 (some r.agent) r.tag
        r.op.code true true
    else m
  let m := count e m (sliceOf l) 0xE 1 (some r.agent)
  let m := if r.counted then decEpoch e m r.port r.agent r.epoch else m
  let m := respond e m r.port r.tag [.cmp r.tag false] true
  if (m.starve (sliceOf l)).any fun y => y.1 == r.agent then m
  else m.setStarve (sliceOf l) (m.starve (sliceOf l) ++ [(r.agent, l, m.now)])

/-- Makes every sector of a folio Invalid (R162). -/
def invalidateFolio (e : Env) (m : M) (l : Line) : M := updTag e m l false fun t => { t with sectors := 0 }

/-- Clears what another agent's request clears of the reservations on its line (Table 5.6, first two rows). -/
def clearByRequest (m : M) (r : Req) : M :=
  let l := r.line
  match r.op with
  | .rdOwn | .atom | .wrLine | .wrPart | .cndSt =>
    clearSlots m (sliceOf l) false fun s => s.line == l && s.agent != r.agent
  | .stickFlush => clearSlots m (sliceOf l) false fun s => s.line == l
  | _ => m

/-- The reservations at the start of a request: the requester's own slot on the line, and what the request clears (Table 5.6). -/
def startReservations (m : M) (r : Req) : M :=
  let m := if r.op.host && r.op != .cndSt then clearSlots m (sliceOf r.line) true fun s => s.agent == r.agent && s.line == r.line
    else m
  clearByRequest m r

end Sys2Proof.Machine
end

