-- ==== Sys2Proof/Machine/Slice.lean ====
section
/-!
DEFINITION. What reaches a slice and what ends there: arrivals and the order of one line, evictions, answers to snoops, grants and
their rollback, composing sticks, fences of agents and host ports, port events and recovery.
-/

namespace Sys2Proof.Machine

open Sys2Proof

/-! ### What holds a request back (R192, R215, R260, R302, R513) -/

/-- Phase 2 of a shed holds the coherent requests for the side given up (R513, R550). -/
def sideHeld (m : M) (l : Line) : Bool := m.twin.shedPhase == 2 && shedding m l

/-- Whether a request would snoop an agent for its line. -/
def wouldSnoop (m : M) (r : Req) (x : Agent) : Bool :=
  let d := dirOf m r.line
  let full := r.mask == fullMask
  if broadcasts m r.line then (snoopOf r.op full (if inexact m r.line then 2 else column d.st)).isSome
  else d.presence.getLsbD x.toNat && (snoopOf r.op full (column d.st)).isSome

/-- Whether a guard of another agent holds a request back (R260). -/
def guardHolds (m : M) (r : Req) : Bool :=
  match guardOn m r.line with
  | none => false
  | some x => r.self != some x &&
    (match r.op with
      | .rdOwn | .atom | .wrLine | .wrPart | .stickFlush | .invalLine | .recallInval => true
      | .cndSt => hasSlot m r.agent r.line
      | _ => wouldSnoop m r x)

/-- A slice whose clock has failed, or that is lost, or an XBR whose clock has failed: messages for the slice are held and never delivered
(R25, Table 2.7, R765). -/
def sliceDead (m : M) (x : Nat) : Bool := m.isl.clkFail.getLsbD x || m.isl.clkFail.getLsbD 16 || m.proof.sliceLost.contains x
/-- Whether a slice takes messages now; the XBR holds those for a stopped slice until it has woken (R78, R80). -/
def sliceReady (m : M) (x : Nat) : Bool := m.isl.run.getLsbD x && !sliceDead m x

/-- Whether a request waits in miss tracking, or at the XBR for its slice; `ahead` are the requests and the registered sticks that arrived
before it (R192, R301, R302).  The CND_ST of a guarded agent goes ahead of what waits for its line, whether the guard holds it back or
not: R261 promises that it succeeds (log entry 22). -/
def blocked (m : M) (r : Req) (ahead : List Req) : Bool :=
  if r.opened || !sliceReady m (sliceOf r.line) then true
  else if r.op.isEvict then false
  else (m.txnOf r.line).isSome || (dirOf m r.line).recoverHold || sideHeld m r.line || guardHolds m r
    || (ahead.any (fun a => a.line == r.line) && !(r.op == .cndSt && guardOn m r.line == some r.agent))

/-! ### Recovery holds (R214 to R217) -/

/-- The lines that are held for a port: entries whose owner lies behind it, and snoops that its port event answered. -/
def heldLines (m : M) (p : HPort) : List Line :=
  let ds := m.coh.dir.filterMap fun kv =>
    match kv.2.recoverHold, kv.2.owner with
    | true, some a => if agentPort a = p then some kv.2.lineTag else none
    | _, _ => none
  let ts := (m.coh.txns.filter fun t => t.snoops.any fun s => s.held && s.port == p).map (·.req.line)
  ds ++ ts.filter fun l => !ds.contains l

/-- The end of a recovery interval (R217): the final status of its PORT_RECOVER, with `poisoned` lines given up. -/
def recoverDone (e : Env) (m : M) (p : HPort) (poisoned : Nat) : M :=
  match (m.port p).interval with
  | none => m
  | some (_, _, held, id) =>
    let m := m.setPort p { m.port p with interval := none, rolledBack := [] }
    finishCmd e m id (if poisoned = 0 then 0 else 0x1A) (resAt 8 held ||| resAt 12 (held - poisoned) ||| resAt 16 poisoned)

/-- The interval of a port ends when no held line remains (R217). -/
def recoverCheck (e : Env) (m : M) (p : HPort) : M :=
  if (m.port p).interval.isSome && (heldLines m p).isEmpty then recoverDone e m p 0 else m

/-! ### Writes of evictions (Table 4.4) -/

/-- The data of an eviction is handled as R183 states: written, retained or through; false where the galley has no room. -/
def evictWrite (e : Env) (m : M) (t : Txn) : M × Txn × Bool :=
  let r := t.req
  if t.attrs.cls == 4 then (deviceWrite e m t r.data fullMask r.poison (answersOf t), t, true)
  else
    let (m, t) := claimRetain e m t
    match doWrite e m t r.data fullMask r.poison (waitersOf t none false) with
    | some m => (m, t, true)
    | none => (m, t, false)
/-- An eviction that finds no galley entry waits for one, in its place and with the modes of its lookup (R148, R288). -/
def evictWait (m : M) (t t' : Txn) : M :=
  if m.coh.txns.contains t then m.setCoh fun c => { c with txns := c.txns.map fun y => if y == t then t' else y }
  else openTxn (noteFull m t.req.line) t'
/-- An eviction that waited for a galley entry waits no more. -/
def evictDone (m : M) (t : Txn) : M := m.setCoh fun c => { c with txns := c.txns.erase t }

/-- The end of a rolled-back grant: the pre-grant state is written (R198, R199). -/
def endRollback (e : Env) (m : M) (l : Line) : M :=
  match m.txnOf l with
  | none => m
  | some t => closeTxn e (putEntry e m t { t.pre with lineTag := l, txnOpen := true }) l

/-- Goes on when the last snoop of a transaction has been answered. -/
def snoopDone (e : Env) (m : M) (l : Line) : M :=
  match m.txnOf l with
  | none => m
  | some t =>
    if !t.snoops.isEmpty then m
    else if t.phase == .rollback then endRollback e m l
    else if t.phase == .snoop then resolve e m l
    else m

/-- Marks of a broadcast answer (R202), or of a sharer's own answer. -/
def answerMarks (e : Env) (m : M) (l : Line) (s : Snp) (a : Agent) (several : Bool) : BitVec 64 :=
  if !s.bcast then agentBit s.agent
  else if several then portMask s.port &&& ~~~(fenceMask e m)
  else agentBit a ||| ((dirOf m l).presence &&& portMask s.port)

/-- Removes an answered snoop from its transaction and goes on. -/
def dropSnoop (e : Env) (m : M) (l : Line) (s : Snp) (marks : BitVec 64) : M :=
  let m := freeSnp m s
  let m := m.updTxn l fun t => { t with
    snoops := t.snoops.filter fun y => !(y.port == s.port && y.tag == s.tag), marks := t.marks ||| marks }
  snoopDone e m l

/-- An eviction from an agent reaches the snoops outstanding to it (R185, R193): a snoop answered EVP for that agent is then complete,
and one not yet answered waits for its answer. -/
def evictSnoops (e : Env) (m : M) (l : Line) (p : HPort) (a : Agent) (owner : Bool) : M :=
  match m.txnOf l with
  | none => m
  | some t =>
    match t.snoops.find? fun s => s.port == p && (s.bcast || s.agent == a) with
    | none => m
    | some s =>
      let done := if s.held then (match s.evp with
          | some x => x == a
          | none => true) else s.evp == some a
      if done then
        dropSnoop e m l s (if s.several && s.kind == .share then answerMarks e m l s a true else 0)
      else
        m.updTxn l fun t => { t with snoops := t.snoops.map fun y =>
          if y.port == s.port && y.tag == s.tag then { y with evicted := a :: y.evicted, owner := y.owner && !owner } else y }

/-- The directory entry that decides an eviction: the line's own, or the one a transaction has taken out of the directory. -/
def entryOf (m : M) (l : Line) : DirEntry :=
  match findDir m l with
  | some w => m.dirAt (dirKey l w)
  | none =>
    match m.txnOf l with
    | some t => t.pre
    | none => .empty
/-- Changes that entry, and what an open transaction of the line has taken from it. -/
def updEntry (e : Env) (m : M) (l : Line) (f : DirEntry → DirEntry) : M :=
  (setDirOf e m l f).updTxn l fun t => { t with pre := (f t.pre).unfenced e m }
def DirEntry.cleared (d : DirEntry) : DirEntry := { d with st := .I, presence := 0, recoverHold := false }
/-- An agent leaves an entry (Table 4.4): as the owner, or as a sharer. -/
def DirEntry.leave (d : DirEntry) (a : Agent) : DirEntry :=
  if d.owner == some a then d.cleared
  else if d.st == .S then
    let p := d.presence &&& ~~~(agentBit a)
    if p == 0 then { d with st := .I, presence := 0 } else { d with presence := p }
  else d

/-- Answers CMP to an eviction without data. -/
def evictCmp (e : Env) (m : M) (r : Req) : M :=
  let m := if r.silent then m else respond e m r.port r.tag [.cmp r.tag false] true
  if r.counted then decEpoch e m r.port r.agent r.epoch else m

/-- The two eviction rows of Table 4.4, once the attributes are known (R193, R216, R411, R428, R538).  A writeback of a line not owned in
a region of partial_wb 1 is served as a WR_PART, which needs a transaction of its own and waits in its turn (R192; log entry 23). -/
def evict (e : Env) (m : M) (t0 : Txn) : M :=
  let r := t0.req
  let l := r.line
  let m := match m.txnOf l with
    | some t =>
      if t.phase == .granted && t.req.agent == r.agent then
        let m := violate e m r.port.lnk 0x33 (some r.agent) r.tag r.op.code true true
        let m := closeTxn e m l
        m.setPort r.port { m.port r.port with ackAfterEvict := t.req.tag :: (m.port r.port).ackAfterEvict }
      else m
    | none => m
  let m := clearSlots m (sliceOf l) true fun s => s.agent == r.agent && s.line == l
  let rolling := match m.txnOf l with
    | some t => t.phase == .rollback && t.req.agent == r.agent
    | none => false
  let d := entryOf m l
  if d.owner == some r.agent && !rolling then
    let (m, t, ok) := if r.op == .evictDirty then evictWrite e m t0 else (evictCmp e m r, t0, true)
    if !ok then evictWait m t0 t
    else
      let m := updEntry e (evictDone m t0) l fun d => d.leave r.agent
      let m := evictSnoops e m l r.port r.agent true
      if d.recoverHold then recoverCheck e m r.port else m
  else if (m.port r.port).interval.isSome && (m.port r.port).rolledBack.contains (r.agent, l) then evictDone (evictCmp e m r) t0
  else if r.op == .evictClean then
    let m := if d.owner.isSome then evictCmp e m r else updEntry e (evictCmp e m r) l fun d => d.leave r.agent
    let m := evictSnoops e m l r.port r.agent false
    recoverCheck e m r.port
  else if inexact m l && (d.st == .I || d.st == .S) then
    let (m, t, ok) := evictWrite e m t0
    if !ok then evictWait m t0 t
    else
      let m := updEntry e (evictDone m t0) l fun d => d.leave r.agent
      recoverCheck e (evictSnoops e m l r.port r.agent false) r.port
  else if t0.attrs.partialWb then
    let m := violate e (evictDone m t0) r.port.lnk 0x32 (some r.agent) r.tag r.op.code true true
    let m := evictSnoops e m l r.port r.agent false
    m.setCoh fun c => { c with waiting := c.waiting ++ [{ r with op := .wrPart, mask := fullMask, attrs := some t0.attrs }] }
  else evictSnoops e (errViol e (evictDone m t0) r 0x05 true) l r.port r.agent false

/-! ### The slice's checks and the start of a request (R154, R162, R225, R254) -/

/-- A request answered ERR by its slice; the WR_NTs of a stick flush are answered one by one. -/
def sliceErr (e : Env) (m : M) (r : Req) (code : Nat) : M :=
  match r.op with
  | .stickFlush => r.answers.foldl (fun a (tag, ag, ep, early) =>
      errViol e a { r with
        op := .wrNt, tag := tag, agent := ag, epoch := ep, silent := r.silent || early, counted := true } code true) m
  | .rsvLd => rsvUnarmed (errViol e m r code true) r.agent r.line
  | _ => errViol e m r code true
/-- A fenced agent's request that has not started is answered ERR and changes nothing (R211). -/
def fencedErr (e : Env) (m : M) (r : Req) : M :=
  let m := errRsp e m r 4
  if r.op == .rsvLd then rsvUnarmed m r.agent r.line else m

/-- Whether a hit brings a class change that must wait for writebacks, and the tag store after the change (R162). -/
def classChange (e : Env) (m : M) (r : Req) (a : Attrs) : M × Bool :=
  let l := r.line
  match findTag e m l false with
  | none => (m, false)
  | some w =>
    let t := m.tagAt (tagKey e.fuse.variant l w)
    if t.regionClass == a.cls || !a.mapped then (m, false)
    else
      let m := updTag e m l false fun t => { t with regionClass := a.cls }
      if a.cls == 1 then (cleanFolio e m l, false)
      else if a.cls == 3 || a.cls == 4 then
        if t.dirtyCount = 0 then (invalidateFolio e m l, false) else (cleanFolio e m l, true)
      else (m, false)

/-- The work of a request once its folio has its class; `won` says that a CND_ST held its slot when its transaction started (R254).  A
line that a recovery window took meanwhile is waited for (R214, R219). -/
def serve (e : Env) (m : M) (r : Req) (a : Attrs) (won : Bool) : M :=
  if r.op.host && agentFenced e m r.agent then fencedErr e m r
  else if r.op.isEvict then evict e (dirCheck e m r.line) (newTxn m r a .galley)
  else if (dirOf m r.line).recoverHold then openTxn m { newTxn m r a .held with cndOk := won }
  else if r.op == .cndSt && !won then cndFail e (dirCheck e m r.line) r
  else
    let m := match r.op with
      | .cndSt => clearByRequest (clearSlots (count e m (sliceOf r.line) 0xD 1 (some r.agent)) (sliceOf r.line) true
          fun s => s.agent == r.agent && s.line == r.line) r
      | _ => startReservations m r
    lookupDir e m r a

/-- The tag lookup of a host's request as the counters take it: a folio miss where its folio is not resident, a sector miss where its
sector is Invalid (Table 17.3, "Miss handling" of chapter 3). -/
def lookupCounts (e : Env) (m : M) (r : Req) : M :=
  let m := count e m (sliceOf r.line) 1 1 (some r.agent)
  if sectorOf e m r.line ≠ 0 then m
  else count e m (sliceOf r.line) (if (findTag e m r.line false).isSome then 4 else 3) 1 (some r.agent)
/-- A request whose attributes are known (R426 steps 12 and 13). -/
def withAttrs (e : Env) (m : M) (r : Req) (a : Attrs) (won : Bool) : M :=
  let own := r.op.host || r.op == .stickFlush
  if r.op.host && agentFenced e m r.agent then fencedErr e m r
  else if own && !a.mapped then sliceErr e m r 0x02
  else if a.cls == 4 && (r.op == .atom || r.op == .rsvLd || r.op == .cndSt) then sliceErr e m r 0x08
  else
    let m := tagCheck e m r.line
    let m := if own then lookupCounts e m r else m
    let (m, waits) := classChange e m r a
    if waits then openTxn m { newTxn m r a .classWb with cndOk := won } else serve e m r a won

/-- A request that has looked up a span is remembered until its final response leaves (R163). -/
def noteLooked (m : M) (r : Req) : M :=
  if r.silent then m
  else
    let tags := if r.op == .stickFlush then r.answers.map (·.1) else if r.op.host then [r.tag] else []
    m.setCoh fun c => { c with looked := c.looked ++ (tags.map fun t => (r.port, t)).filter fun x => !c.looked.contains x }

/-- A request starts: a fenced agent's is answered ERR (R211), and the attributes are looked up (R156), and it keeps
those it has looked up (R161).  The slice's own work, recalls
and back-invalidations, reads the master table itself (log entry 24). -/
def start (e : Env) (m : M) (r : Req) : M :=
  let won := r.op == .cndSt && hasSlot m r.agent r.line
  if r.op.host && agentFenced e m r.agent then fencedErr e m r
  else
    match r.attrs with
    | some a => withAttrs e m r a won
    | none =>
      if !r.op.host && r.op != .stickFlush then withAttrs e m r (ratAttrs e.cfg.rat (folioOf r.line).toNat) won
      else
        match findSpan m r.line with
        | (m, some a) => withAttrs e (noteLooked m r) r a won
        | (m, none) =>
          openTxn (count e m (sliceOf r.line) 6 1 (some r.agent)) { newTxn m r .unmapped .attr with cndOk := won }

/-- The guard of an agent ends when another of its requests reaches the slice (R260). -/
def endGuard (m : M) (x : Nat) (a : Agent) : M :=
  match (List.range 8).find? fun k => (m.slot x k).armed && (m.slot x k).guarded && (m.slot x k).agent == a with
  | none => m
  | some k => leaveStarve (m.setSlot x k { m.slot x k with guarded := false }) x a

/-! ### What can go on (R192, R162, R208, R243) -/

/-- The first waiting request that nothing holds back. -/
def firstStart (m : M) : List Req → List Req → Option Req
  | _, [] => none
  | ahead, r :: rest => if blocked m r ahead then firstStart m (r :: ahead) rest else some r

/-- Whether the entry that a transaction waits for has its line (R45). -/
def entryReady (m : M) (l : Line) : Bool :=
  match m.galleyOf l, m.coh.staging.find? fun g => g.line == l with
  | some g, _ => !g.loading && !g.rmw
  | none, some g => !g.loading
  | none, none => true
/-- A Dirty line of a folio on which no write to memory is under way. -/
def unclean (e : Env) (m : M) (l : Line) : Option Line :=
  ((List.range 32).map (lineOfFolio l)).find? fun k => decide (2 ≤ sectorOf e m k) && !writingBack m k

/-- What an open transaction waits for has come by itself: the writebacks of a class change, the end of a recovery hold, the memory
acknowledgement of a far ATOM, the line in its galley entry, or an eligible directory way. -/
def canResume (e : Env) (m : M) (t : Txn) : Bool :=
  let l := t.req.line
  match t.phase with
  | .classWb => (unclean e m l).isSome || (match findTag e m l false with
      | some w => (m.tagAt (tagKey e.fuse.variant l w)).dirtyCount == 0
      | none => true)
  | .held => !(dirOf m l).recoverHold
  | .memAck => (m.galleyOf l).isNone
  | .daRead => !t.arrWait && entryReady m l
  | .way => (dirWay m l).isSome
  | _ => false
/-- Such a transaction goes on.  Lines that became Dirty while a class change waited are written back too (R162). -/
def resume (e : Env) (m : M) (t : Txn) : M :=
  let l := t.req.line
  let out (m : M) : M := m.setCoh fun c => { c with txns := c.txns.erase t }
  match t.phase with
  | .classWb =>
    match unclean e m l with
    | some k => cleanLine e m k []
    | none => serve e (invalidateFolio e (out m) l) t.req t.attrs t.cndOk
  | .held => serve e (out m) t.req t.attrs t.cndOk
  | .memAck => closeTxn e m l
  | .daRead => fetchThen e m t
  | .way => dirRetry e m t
  | _ => m

/-- One thing that can go on by itself: an open transaction, or a request that nothing holds back. -/
def settleStep (e : Env) (m : M) : Option M :=
  match m.coh.txns.find? (canResume e m) with
  | some t => some (resume e m t)
  | none => (firstStart m [] m.coh.waiting).map fun r =>
      start e (m.setCoh fun c => { c with waiting := c.waiting.erase r }) r

/-- Everything that can go on by itself does. -/
def settleN (e : Env) : Nat → M → M
  | 0, m => m
  | n + 1, m =>
    match settleStep e m with
    | none => m
    | some m => settleN e n m
def settle (e : Env) (m : M) : M := settleN e (40 * (m.coh.waiting.length + m.coh.txns.length) + 40) m

/-- The guard that a request's arrival ends, if it does (R260). -/
def arriveGuard (m : M) (r : Req) : M :=
  if r.op.host && !(r.op == .cndSt && guardOn m r.line == some r.agent) then endGuard m (sliceOf r.line) r.agent else m

/-- A request for a line demands the flush of the stick that the other port has open for it (Table 6.6, R296). -/
def demandStick (m : M) (r : Req) : M :=
  if !r.op.host then m
  else m.setCoh fun c => { c with sliceSticks := c.sliceSticks.map fun s =>
    if s.line == r.line && s.port == r.port.other then { s with demanded := true } else s }

/-- A request reaches its slice.  Evictions are applied on arrival (R193), after what can be performed before them (R301); a stick flush
takes the place in which its stick was registered; every other request starts in its turn.  A message for a stopped slice wakes it
(R78). -/
def arrive (e : Env) (m : M) (r : Req) : M :=
  let m := demandStick (arriveGuard (knock e m (sliceOf r.line)) r) r
  let mine (y : Req) : Bool := y.opened && y.port == r.port && y.line == r.line
  if r.op.isEvict && sliceReady m (sliceOf r.line) then start e (settle e m) r
  else if r.op == .stickFlush && m.coh.waiting.any mine then
    m.setCoh fun c => { c with waiting := c.waiting.map fun y => if mine y then r else y }
  else m.setCoh fun c => { c with waiting := c.waiting ++ [r] }

/-! ### Composing sticks (R293 to R303) -/

/-- Flushes the stick of a line (R300); `cause` is its row of Table 6.6, numbered from 0.  A `silent` flush answers nothing. -/
def flushStick (e : Env) (m : M) (p : HPort) (l : Line) (cause : Nat) (silent : Bool) : M :=
  match (m.port p).sticks.find? (·.line == l) with
  | none => m
  | some s =>
    let m := m.setPort p { m.port p with sticks := (m.port p).sticks.filter (·.line != l) }
    let m := count e m p.lnk.island (0x10 + cause) 1 none
    let m := m.setCoh fun c => { c with sliceSticks := c.sliceSticks.filter fun y => !(y.port == p && y.line == l) }
    let m := if s.replied || silent then m
      else m.setPort p { m.port p with unreplied := (m.port p).unreplied ++ [(l, s.tags.map (·.1))] }
    arrive e m ⟨.stickFlush, p, 0, 0, l, 0, s.poison, s.mask, s.data, true, 0, m.now, s.contrib, s.tags, 0, silent,
      if s.replied then some s.attrs else none, false, false⟩
/-- Flushes every stick of a port that `f` names. -/
def flushSticks (e : Env) (m : M) (p : HPort) (f : Stick → Bool) (cause : Nat) (silent : Bool) : M :=
  ((m.port p).sticks.filter f).foldl (fun a s => flushStick e a p s.line cause silent) m

/-! ### Grants (R195 to R199) -/

/-- A grant is rolled back at once, without a snoop (R199). -/
def rollbackNow (e : Env) (m : M) (t : Txn) : M :=
  endRollback e (t.snoops.foldl freeSnp (count e m (sliceOf t.req.line) 0xA 1 none)) t.req.line

/-! ### Fences of agents and host ports (R211, R212, R435) -/

/-- Configuration accesses. -/
def Op.cfg : Op → Bool | .cfgRd | .cfgWr => true | _ => false
/-- Ends the barriers and the epochs of a fenced agent (Table 6.3); the configuration accesses of its hold queue go on. -/
def fenceEpochs (e : Env) (m : M) (p : HPort) (a : Agent) : M :=
  let x := (m.port p).epochsOf a
  let m := m.setPort p ((m.port p).setEpochs a { Epochs.empty with opened := if x == .empty then 0 else x.opened + 1 })
  let m := x.barriers.foldl (fun m (_, tag) => respond e (noteOutcome m p tag 6) p tag [.err tag 4] true) m
  let m := m.setPort p { m.port p with cfgReady := (m.port p).cfgReady ++ x.hold.filter (·.op.cfg) }
  (x.hold.filter (!·.op.cfg)).foldl (fun m r => errRsp e m r 4) m

/-- The ATOMs of an agent that is fenced (Table 5.7): an unacknowledged grant of a near one is rolled back at once (R199), and the DATA of a
far one that has started is discarded, which frees its tag. -/
def fenceAtoms (e : Env) (m : M) (a : Agent) : M :=
  let p := agentPort a
  let near := m.coh.txns.filter fun t =>
    (t.phase == .granted || t.phase == .rollback) && t.req.op == .atom && t.req.agent == a && t.req.port == p
  let m := near.foldl (fun m t =>
    rollbackNow e (m.setPort p { m.port p with voided := t.req.tag :: (m.port p).voided }) t) m
  let far (t : Txn) : Bool := t.far && t.req.agent == a && t.req.port == p
  let mine (w : Waiter) : Bool := w.port == p && w.agent == a && w.old.isSome && w.answer && !w.early
  let ws := (m.coh.galley ++ m.coh.staging).flatMap fun g => g.waiters.filter mine
  let quiet (g : GEntry) : GEntry := { g with waiters := g.waiters.map fun w => if mine w then { w with answer := false } else w }
  let tags := (m.coh.txns.filter far).map (·.req.tag) ++ ws.map (·.tag)
  let m := m.setCoh fun c => { c with
    txns := c.txns.map fun t => if far t then { t with dropped := true, req := { t.req with silent := true } } else t
    galley := c.galley.map quiet, staging := c.staging.map quiet }
  tags.foldl (fun m t => doneLook (m.setPort p { m.port p with
    outstanding := (m.port p).outstanding.filter (·.1 ≠ t) }) p t) m

/-- Fences one agent (R211); Table 5.7 says what becomes of its ATOMs (R262). -/
def fenceAgent (e : Env) (m : M) (a : Agent) (event : Bool) : M :=
  if agentFenced e m a then m
  else
    let p := agentPort a
    let m := wr e m (fenceReg a) (rd e m (fenceReg a) ||| ((1 : Word) <<< (a.toNat % 32)))
    let m := fenceAtoms e (dropReservations m (· == a)) a
    let m := flushSticks e m p (fun s => s.contrib.getLsbD (a.toNat % 32)) 7 false
    let m := fenceEpochs e m p a
    if event then fenceEvent e m 0x0010 a.toNat else m

/-- Records a line poisoned and gives it up: the requests that wait for it find it poisoned (R215). -/
def poisonHeld (e : Env) (m : M) (p : HPort) (l : Line) : M :=
  let m := updEntry e (poisonLine e m l) l DirEntry.cleared
  match m.txnOf l with
  | none => m
  | some t =>
    let m := m.updTxn l fun t => { t with poisoned := true }
    (t.snoops.filter fun s => s.held && s.port == p).foldl (fun m s => dropSnoop e m l s 0) m
/-- Every line still held for a port is poisoned (R215, R217); answers how many. -/
def poisonAll (e : Env) (m : M) (p : HPort) : M × Nat :=
  let ls := heldLines m p
  let m := ls.foldl (fun m l => poisonHeld e m p l) m
  let m := if ls.isEmpty then m else log e m 0x0205 p.lnk.island (BitVec.ofNat 32 p.n) (BitVec.ofNat 32 ls.length) 0
  (m, ls.length)
/-- The recovery interval ends at its length, at a further port event or at a fence (R217, R218, R435). -/
def endInterval (e : Env) (m : M) (p : HPort) : M :=
  if (m.port p).interval.isNone then m
  else
    let (m, n) := poisonAll e m p
    recoverDone e m p n

/-- A host port is fenced (R435). -/
def fencePort (e : Env) (m : M) (p : HPort) : M :=
  if linkFenced e m p.lnk then m
  else
    let m := wr e m (rViolStat p.lnk) (rd e m (rViolStat p.lnk) ||| 0x4000)
    let grants := m.coh.txns.filter fun t => (t.phase == .granted || t.phase == .rollback) && t.req.port == p
    let m := grants.foldl (fun m t => rollbackNow e
      (m.setPort p { m.port p with voided := t.req.tag :: (m.port p).voided }) t) m
    let m := (List.range 32).foldl (fun m k => fenceAgent e m (BitVec.ofNat 6 (32 * p.n + k)) false) m
    let m := endInterval e m p
    fenceEvent e m 0x0011 p.lnk.n

/-! ### Timeouts of snoops (R185, R209, R210) -/

/-- The snoop with a tag on a port, and the line of its transaction. -/
def findSnp (m : M) (p : HPort) (tag : Tag) : Option (Txn × Snp) :=
  m.coh.txns.findSome? fun t => (t.snoops.find? fun s => s.port == p && s.tag == tag).map fun s => (t, s)

/-- A snoop times out: the agent or the port is fenced and counts as answering SNP_RSP_I; a lost owner poisons the line. -/
def snoopLost (e : Env) (m : M) (t : Txn) (s : Snp) : M :=
  let l := t.req.line
  let x := sliceOf l
  let lost := if t.phase == .rollback then t.grant != .s else if s.bcast then s.owner || !t.exact else s.owner
  let who := if s.bcast then 0x40 + s.port.n else s.agent.toNat
  let m := log e m 0x0203 x (BitVec.ofNat 32 who) 0 (l.setWidth 64)
  let m := if lost then (poisonLine e m l).updTxn l fun t => { t with poisoned := true } else m
  let m := if s.bcast then fencePort e m s.port else fenceAgent e m s.agent true
  dropSnoop e m l s 0

/-! ### Answers to snoops (R179 to R185, R193, R202, Table 9.3, R949) -/

/-- The answers (Table 4.3). -/
inductive Ans where
  | i | s | id | sd | evp
  deriving DecidableEq, Repr

def Ans.code : Ans → Nat | .i => 0x28 | .s => 0x29 | .id => 0x2A | .sd => 0x2B | .evp => 0x2C

/-- The form in which an answer is taken (Table 9.3), and whether it breaks Table 4.3. -/
def takenAs (k : SnpKind) (a : Ans) : Ans × Bool :=
  match k, a with
  | .share, .id => (.id, true)
  | .inv, .s => (.i, true)
  | .inv, .sd => (.i, true)
  | .inv, .id => (.i, true)
  | .fetchInv, .s => (.i, true)
  | .fetchInv, .sd => (.id, true)
  | _, a => (a, false)

/-- A snoop answer that ends its snoop (R183, R184). -/
def answered (e : Env) (m : M) (t : Txn) (s : Snp) (r : SnpRsp) (ans : Ans) (data : Data) : M :=
  let l := t.req.line
  let lk := r.port.lnk
  let (a, bad) := takenAs s.kind ans
  let own := s.owner && (entryOf m l).st == .M && t.phase != .rollback
  let noData := own && s.kind != .inv && (a == .i || a == .s)
  let hasData := a == .id || a == .sd
  let badData := hasData && !s.owner && (!s.bcast || t.exact)
  let m :=
    if noData then
      let m := violate e m lk 0x31 (some r.agent) r.tag ans.code true false
      let m := if linkFenced e m lk || agentFenced e m r.agent then m
        else log e m 0x0202 (sliceOf l) (r.agent.setWidth 32) 0x31 (l.setWidth 64)
      (poisonLine e m l).updTxn l fun t => { t with poisoned := true }
    else if bad then violate e m lk 0x34 (some r.agent) r.tag ans.code true true
    else if badData then violate e m lk 0x35 (some r.agent) r.tag ans.code true true
    else m
  let m := if hasData && !badData then
      m.updTxn l fun t => { t with ownerData := some data, ownerPoison := r.poison }
    else m
  let shares := s.kind == .share && (a == .s || a == .sd)
  dropSnoop e m l s (if shares then answerMarks e m l s r.agent r.several else 0)

/-- A snoop answer arrives (R194, R213, R949). -/
def snoopAnswer (e : Env) (m : M) (r : SnpRsp) (ans : Ans) (data : Data) : M :=
  let lk := r.port.lnk
  if (m.link lk).st != .active then m
  else
    let stray (m : M) (code : Nat) (counted : Bool) : M := violate e m lk code (some r.agent) r.tag ans.code counted true
    if linkFenced e m lk || agentFenced e m r.agent then stray m 0x17 false
    else
      match findSnp m r.port r.tag with
      | none => stray m 0x14 true
      | some (t, s) =>
        if sliceDead m (sliceOf t.req.line) then m
        else if s.held || s.evp.isSome || (!s.bcast && s.agent != r.agent) then stray m 0x14 true
        else
          match ans with
          | .evp =>
            if s.evicted.contains r.agent then
              dropSnoop e m t.req.line s
                (if r.several && s.kind == .share then answerMarks e m t.req.line s r.agent true else 0)
            else
              m.updTxn t.req.line fun t => { t with snoops := t.snoops.map fun y =>
                if y.port == s.port && y.tag == s.tag then { y with evp := some r.agent, several := r.several } else y }
          | a => answered e m t s r a data

/-- A write enters the open epoch of its agent (R273). -/
def enterEpoch (m : M) (r : Req) : M × Req :=
  if r.op.writes then
    let x := (m.port r.port).epochsOf r.agent
    (m.setPort r.port ((m.port r.port).setEpochs r.agent (incEpoch x)), { r with epoch := x.opened, counted := true })
  else (m, r)

/-! ### Port events (R214, Tables 4.7, 5.7, 6.3, 8.8) -/

/-- What becomes of the requests that a port event finds waiting for a slice (Table 8.8, Table 5.7). -/
def eventRequest (p : HPort) (r : Req) : Option Req :=
  if r.port != p || !(r.op.host || r.op == .stickFlush) then some r
  else match r.op with
    | .rdShared | .rdOwn | .rdOnce | .rdNt | .rsvLd | .atom | .barrier | .cfgRd => none
    | _ => some { r with silent := true }

/-- Whether the snoops of a line's transaction have been answered, so that its entry's owner is the owner no more. -/
def ownerGone (m : M) (l : Line) : Bool :=
  match m.txnOf l with
  | some t => t.phase == .daRead || t.phase == .memRead || t.phase == .mirFetch || t.phase == .galley || t.phase == .ready
      || t.phase == .memAck
  | none => false
/-- The entries of the directory at a port event (Table 4.7). -/
def sweepDir (e : Env) (m : M) (p : HPort) : M :=
  m.coh.dir.foldl (fun m kv =>
    let d := kv.2
    match d.st with
    | .S =>
      let q := d.presence &&& ~~~(portMask p)
      if q == d.presence then m
      else
        let d := if q == 0 then { d with st := .I, presence := 0 } else { d with presence := q }
        putDir e m kv.1 (if d.live then d else .empty)
    | .I => m
    | _ =>
      match d.owner with
      | some a => if agentPort a = p && !ownerGone m d.lineTag then putDir e m kv.1 { d with recoverHold := true } else m
      | none => m) m

/-- What open transactions have taken from their entries loses the port's agents too (Table 4.7, R199). -/
def sweepTxns (m : M) (p : HPort) : M :=
  let clear (d : DirEntry) : DirEntry :=
    if d.st != .S then d
    else
      let q := d.presence &&& ~~~(portMask p)
      if q == 0 then { d with st := .I, presence := 0 } else { d with presence := q }
  m.setCoh fun c => { c with txns := c.txns.map fun t => { t with marks := t.marks &&& ~~~(portMask p), pre := clear t.pre } }

/-- The snoops to a port at its port event (Table 4.7). -/
def sweepSnoops (e : Env) (m : M) (p : HPort) : M :=
  (m.coh.txns.flatMap fun t => (t.snoops.filter (·.port == p)).map fun s => (t, s)).foldl (fun m (t, s) =>
    let l := t.req.line
    let holds := if t.phase == .rollback then false else s.owner || (s.bcast && !t.exact)
    if holds && s.evicted.isEmpty then
      let m := updEntry e m l fun d => { d with recoverHold := true }
      m.updTxn l fun t => { t with snoops := t.snoops.map fun y =>
        if y.port == s.port && y.tag == s.tag then
          { y with held := true, evp := if y.evp.isSome then y.evp else if y.bcast then none else some y.agent }
        else y }
    else dropSnoop e m l s 0) m

/-- From now on no response leaves for the requests of a port that the device has taken (R410). -/
def silencePort (m : M) (p : HPort) : M :=
  let m := m.setCoh fun c => { c with
    waiting := c.waiting.filterMap (eventRequest p)
    txns := c.txns.map fun t =>
      if t.req.port == p && (t.req.op.host || t.req.op == .stickFlush) then { t with dropped := true, req := { t.req with silent := true } }
      else t
    looked := c.looked.filter (·.1 != p), syncs := c.syncs.map fun s => (s.1, s.2.filter (·.1 != p))
    galley := c.galley.map fun g => { g with waiters := g.waiters.map fun w => if w.port == p then { w with answer := false } else w }
    staging := c.staging.map fun g => { g with waiters := g.waiters.map fun w => if w.port == p then { w with answer := false } else w } }
  let silent (r : MemReq) : MemReq := { r with req := r.req.map fun q => if q.port == p then { q with silent := true } else q }
  [MPort.mpa, .mpb].foldl (fun m k => m.setMem k { m.mem k with
    outstanding := (m.mem k).outstanding.map silent, queue := (m.mem k).queue.map silent, held := (m.mem k).held.map silent }) m

/-- A port event of a host port (R214, R409).  Inside a recovery interval it ends the interval, the lines it has just held among those
poisoned (R218). -/
def portEvent (e : Env) (m : M) (p : HPort) : M :=
  let m := flushSticks e m p (fun _ => true) 7 true
  let q := m.port p
  let gone := m.coh.waiting.filter fun r => r.counted && (eventRequest p r).isNone
  let m := silencePort m p
  -- WR_NTs that no stick has taken yet are performed (Table 8.8)
  let flush (r : Req) : Req := if r.op != .wrNt then r
    else { r with op := .stickFlush, tag := 0, agent := 0, silent := true, counted := false
                  answers := [(r.tag, r.agent, r.epoch, false)] }
  let m := q.ntWait.foldl (fun m r => arrive e m (flush r)) m
  -- barriers, and the agents' hold queues, which go on behind what the agents sent before
  let agents := (List.range 32).map fun k => BitVec.ofNat 6 (32 * p.n + k)
  let m := agents.foldl (fun m a =>
    m.setPort p ((m.port p).setEpochs a { (m.port p).epochsOf a with barriers := [], hold := [] })) m
  let m := gone.foldl (fun m r => decEpoch e m p r.agent r.epoch) m
  let m := agents.foldl (fun m a =>
    ((q.epochsOf a).hold.filterMap (eventRequest p)).foldl (fun m r =>
      if r.op == .cfgWr then m.setPort p { m.port p with cfgReady := (m.port p).cfgReady ++ [r] }
      else
        let (m, r) := enterEpoch m r
        arrive e m (flush r)) m) m
  let m := m.setPort p { m.port p with cfgReady := (m.port p).cfgReady.filterMap (eventRequest p) }
  -- samples of requests whose responses are discarded (R798)
  let m := ((m.prf.sampled.filter fun s => s.port == p).map (·.tag)).foldl (fun m t => sampleDone e m p t true) m
  -- grants (R199); the evictions of their lines are known to R411
  let grants := m.coh.txns.filter fun t => (t.phase == .granted || t.phase == .rollback) && t.req.port == p
  let m := grants.foldl (fun m t => rollbackNow e m t) m
  let m := m.setPort p { m.port p with
    outstanding := [], ackAfterEvict := [], voided := [], ntWait := [], unreplied := []
    hold := q.hold.map fun r => { r with silent := true }
    rolledBack := grants.map (fun t => (t.req.agent, t.req.line)) ++ (m.port p).rolledBack
    window := if q.window.isSome || q.interval.isSome then q.window else some m.now }
  let m := dropReservations m (fun a => agentPort a = p)
  let m := sweepSnoops e (sweepTxns (sweepDir e m p) p) p
  let m := m.setPort p { m.port p with snpTags := (m.port p).snpTags.filter fun t => (findSnp m p t).isSome }
  let m := m.setCoh fun c => { c with sweeps := (List.range 16).foldl (fun s x =>
    if s.contains (x, .portEvent) then s else s ++ [(x, .portEvent)]) c.sweeps }
  endInterval e m p

end Sys2Proof.Machine
end

