-- ==== Sys2Proof/Machine/Memory.lean ====
section
/-!
DEFINITION. Answers of the data array and of the memory ports: reads and writes that complete, galley entries and fill staging that
free, and what becomes of memory requests when a memory link goes down.
-/

namespace Sys2Proof.Machine

open Sys2Proof

/-! ### Entries that wait for their line -/

/-- Changes the entry of a line, in the galley or in fill staging. -/
def updEntryOf (m : M) (l : Line) (f : GEntry → GEntry) : M :=
  match m.galleyOf l with
  | some _ => m.updG l f
  | none => m.setCoh fun c => { c with staging := c.staging.map fun g => if g.line == l then f g else g }

/-- The line arrives in an entry that was loading: it fills the bytes that no write has given (Table 3.7), and its poison is the entry's
and the folio's (R122). -/
def loadEntry (e : Env) (m : M) (l : Line) (data : Data) (poison : Bool) : M :=
  let held := match m.galleyOf l with
    | some g => some g
    | none => m.coh.staging.find? fun g => g.line == l
  match held with
  | none => m
  | some g =>
    if !g.loading then m
    else
      let m := updEntryOf m l fun g => { g with
        data := mergeBytes data g.data g.known, mask := fullMask, known := fullMask, poison := g.poison || poison, loading := false }
      finishG e (if poison then notePoison e m l (g.kind == .mirrorIn) else m) l
/-- Whether an entry of the line is loading. -/
def loadingEntry (m : M) (l : Line) : Bool := (m.coh.galley ++ m.coh.staging).any fun g => g.line == l && g.loading

/-- A whole line is mirrored again (R525, R528, R951); the writes that waited on the old version await the new one. -/
def resendLine (e : Env) (m : M) (l : Line) (data : Data) (poison : Bool) : M :=
  match findTag e m l false with
  | none => m
  | some w =>
    let port := (m.tagAt (tagKey e.fuse.variant l w)).memPort
    let (m, t) := mirSend e m l data fullMask poison port
    if t == 0 then m
    else m.updG l fun g => { g with waiters := g.waiters.map fun x => if x.mtag == some 0 then { x with mtag := some t } else x }

/-- The holder reads a Held copy UNCORRECTABLE for a merge: the sector becomes Invalid and the MIR_WRITE is answered MIR_LOST
(Table 11.8). -/
def mirrorReadLost (e : Env) (m : M) (l : Line) : M :=
  match m.galleyOf l with
  | none => m
  | some g =>
    let m := g.acks.foldl (fun m a => sendCkl e m (.mirLost a.1 l)) (setSector e m l true 0)
    repin e (m.setCoh fun c => { c with galley := c.galley.filter fun y => y.line != l }) l

/-! ### The data array (R465, R474, R482, Table 10.8) -/

/-- The line that a galley entry was loading has been read: as read, from the twin, or lost (Table 11.8). -/
def loadRead (e : Env) (m : M) (r : DaRead) (data : Data) (poison ue : Bool) : M :=
  let l := r.line
  let holder := match m.galleyOf l with
    | some g => g.kind == .mirrorIn
    | none => false
  if !loadingEntry m l then m
  else if ue && holder then mirrorReadLost e m l
  else if !ue then loadEntry e m l data poison
  else
    match if r.sector = 3 then askTwin e m l else none with
    | some m => m
    | none => loadEntry e (poisonCount e m) l data true

/-- The read of a masked write is complete (R62, Table 10.8): its bytes lie over what was read. -/
def rmwRead (e : Env) (m : M) (g : GEntry) (r : DaRead) (err0 err1 : BitVec 40) : M :=
  let l := r.line
  let (m, data, o0, o1) := readRest e m l r.way g.mask r.lo r.hi err0 err1
  let whole (m : M) (p : Bool) : M :=
    let m := m.updG l fun g => { g with
      data := mergeBytes data g.data g.known, known := fullMask, rmw := false, poison := g.poison || p }
    finishG e (if p then notePoison e m l false else m) l
  let bad := o0 == .poisoned || o0 == .ambiguous || o1 == .poisoned || o1 == .ambiguous
  if o0 != .ue && o1 != .ue then whole m bad
  else if 2 ≤ r.sector then whole (poisonCount e m) true
  else if g.wanted == .retain then
    let m := m.updG l fun g => { g with rmw := false, loading := true }
    let (m, now) := memIssue e m g.memPort ⟨0, l, .load, false, true, fullMask, 0, false, none, none⟩
    if now then loadEntry e { m with free := m.free + 2 } l (lostData m) true else m
  else finishG e ((setSector e m l false 0).updG l fun g => { g with rmw := false, daAgain := false }) l

/-- Whether the channel of a line answers: its island runs, or it is FAILED and answers at once (R78, R80, R493). -/
def dacReady (e : Env) (m : M) (l : Line) : Bool := dacDown e m l || m.island (dacIsland (dacOf e.fuse.variant l))

/-- A read of the data array is complete, with the pins that read in error in each half. -/
def daReadDone (e : Env) (m : M) (l : Line) (err0 err1 : BitVec 40) : M :=
  match m.coh.daReads.find? (·.line == l) with
  | none => m
  | some r =>
    if !dacReady e m l then m
    else
      let m := m.setCoh fun c => { c with daReads := c.daReads.erase r }
      let masked := if r.use == .rmw then (m.galleyOf l).filter fun g => g.rmw && !g.loading && g.known != fullMask else none
      match masked with
      | some g => rmwRead e m g r err0 err1
      | none =>
        let (m, data, poison, ue) := readLineOf e m l r.way r.lo r.hi err0 err1
        match r.use with
        | .discard => m
        | .txn =>
          match m.txnOf l with
          | none => m
          | some t =>
            if !t.arrWait then m
            else
              let t' : Txn := { t with arrWait := false, arrGot := some ⟨data, poison, ue, r.sector⟩ }
              let m := m.updTxn l fun _ => t'
              if t.phase == .daRead then fetchThen e m t' else m
        | .load => loadRead e m r data poison ue
        | .rmw =>
          let m := loadRead e m r data poison ue
          finishG e (m.updG l fun g => { g with rmw := false }) l
        | .resend =>
          let m := if ue then recordLost e m l data else m
          let (d, p) := overGalley m l data (poison || ue)
          resendLine e m l d p
        | .fetch mtag =>
          if ue then
            let m := if (findTag e m l true).isSome then setSector e m l true 0 else m
            sendCkl e m (.mirLost mtag l)
          else sendCkl e m (.mirData mtag poison data)

/-- Fill data is written to the array (R52), once the victim's lines have left its way's fill staging (R49); data whose line has left the
way since is dropped. -/
def fillDone (e : Env) (m : M) (f : Fill) : M :=
  let l := f.line
  let victim (g : GEntry) : Bool := g.way == f.way && sliceOf g.line == sliceOf l && setOf e.fuse.variant g.line == setOf e.fuse.variant l
  if (fillOf e m l).isNone then finishG e (dropFill m l) l
  else if m.coh.staging.any victim then m
  else finishG e (dropFill (writeLineArray e m l f.way f.data f.poison) l) l

/-- The array write of a galley entry is complete: the writes that waited on it have their end point (R54), and the entry takes the kind
that its newest write needs (R286). -/
def daStages (m : M) (l : Line) : M :=
  m.updG l fun g =>
    let g : GEntry := { g with
      daBusy := false, base := if g.wanted == .retain then 2 else g.base
      waiters := g.waiters.map fun x => if x.stage == 1 && !x.mem then { x with stage := 2 } else x }
    if g.kind == .retain || g.kind == .mirrorIn then g.settled else g

/-- The write bursts of a line are complete in the data array (R52, R54, R59, R482). -/
def daWriteDone (e : Env) (m : M) (l : Line) : M :=
  if !dacReady e m l then m
  else
    match m.coh.fills.find? (·.line == l), m.galleyOf l with
    | some f, _ => fillDone e m f
    | none, none => m
    | none, some g =>
      if !g.daBusy then m
      else
        let mirror := g.kind == .mirrorIn
        let m := match findTag e m l mirror with
          | none => m
          | some w =>
            if dacDown e m l then m
            else if mirror || g.mask == fullMask || g.poison then writeLineArray e m l w g.data g.poison
            else writeMasked e m l w g.data g.mask
        let m := daStages m l
        finishG e (if mirror then answerMirror e m l else m) l

/-! ### Room in the galley (R49, R288) -/

/-- Tries again a transaction that waits for a galley entry.  A request that goes on waiting does not set full_seen again. -/
def retryGalley (e : Env) (m : M) (t : Txn) : M :=
  let l := t.req.line
  let seen := m.coh.galleyFull
  let m :=
    if t.req.op.isEvict then evict e m t
    else
      match t.phase, t.ownerData with
      | .ready, some d => dataReady e (m.updTxn l fun t => { t with ownerData := none }) l d t.ownerPoison
      | _, some _ => resolve e m l
      | _, none => writeNow e m t t.req.data t.req.mask t.req.poison none
  m.setCoh fun c => { c with galleyFull := seen }

/-- A freed entry is taken by the requests that wait for one in its slice, in order of arrival. -/
def galleyFree (e : Env) (m : M) (x : Nat) : M :=
  (m.coh.txns.filter fun t => t.galleyWait && sliceOf t.req.line == x).foldl (retryGalley e) m

/-- Victim lines in fill staging take the entries that have freed (R49). -/
def stagingFree (e : Env) (m : M) (x : Nat) : M :=
  (m.coh.staging.filter fun g => sliceOf g.line == x).foldl (fun m g =>
    if galleyRoom m x .victim && (m.galleyOf g.line).isNone then
      let m := m.setCoh fun c => { c with
        staging := c.staging.erase g, galley := c.galley ++ [{ g with slot := freeSlot m x }] }
      finishG e (repin e m g.line) g.line
    else m) m

/-! ### Answers of a memory port (R280, R281, R414 to R419) -/

/-- The data of a memory read: a fill is recorded and its data reaches fill staging (R52), and the transaction or the entry goes on; a
request that writes the line keeps its way for that write.  `fill` is false for the poisoned answer of an unusable port (Table 8.10). -/
def memReadDone (e : Env) (m : M) (r : MemReq) (data : Data) (poison fill : Bool) : M :=
  let l := r.line
  match r.use with
  | .load => loadEntry e m l data poison
  | _ =>
    match m.txnOf l with
    | none => m
    | some t =>
      if t.phase != .memRead then m
      else
        let (d, p) := overGalley m l data poison
        let k := tagKey e.fuse.variant l t.tagWay
        let writes := t.req.op == .wrPart || t.req.op == .cndSt || t.far
        let m :=
          if fill && decide (t.tagWay < 16) && !writes && !dacDown e m l && !(m.tagAt k).evac then
            let x := m.tagAt k
            let m := touch e (putTag e m k { x.setSector (lineIndex l) 1 with poisonAny := x.poisonAny || p }) t
            m.setCoh fun c => { c with fills := (c.fills.filter fun f => f.line != l) ++ [⟨l, t.tagWay, d, p⟩] }
          else m
        let m := m.updTxn l fun t => { t with tagWay := if writes && fill then t.tagWay else 16 }
        dataReady e m l d p

/-- A write is acknowledged by memory (R281, R283): a galley write, which ends the waits on it (R270), or a DEVICE write. -/
def memAck (e : Env) (m : M) (r : MemReq) : M :=
  let l := r.line
  let m := [MPort.mpa, .mpb].foldl (fun (m : M) p => m.setMem p { m.mem p with downs := (m.mem p).downs.map fun d => d.erase l }) m
  match r.use with
  | .device =>
    match r.req with
    | none => m
    | some q => q.answers.foldl (fun m (tag, a, ep, early) =>
        if early then m.setCoh fun c => { c with notices := c.notices ++ [(sliceOf l, q.port, a, ep)] }
        else
          let m := if q.silent then m else respond e m q.port tag [.cmp tag false] true
          decEpoch e m q.port a ep) m
  | _ =>
    let done := (m.galleyOf l).any fun g => g.kind == .victim && g.wanted != .victim && decide (2 ≤ g.base)
    let m := if done then lineCleaned m l ((m.galleyOf l).any (·.poison)) else m
    let m := m.updG l fun g =>
      let g : GEntry := { g with
        memBusy := false, memHeld := false
        waiters := g.waiters.map fun x => if x.stage == 1 && x.mem then { x with stage := 2 } else x }
      if g.kind == .through || g.kind == .victim then g.settled else g
    finishG e m l

/-- MEMPORT_RESUMED for every link-down whose held writes are all acknowledged, once the link is up (R419). -/
def memResumed (e : Env) (m : M) (p : MPort) : M :=
  if !memUp m p then m
  else
    let n := ((m.mem p).downs.filter (·.isEmpty)).length
    let m := m.setMem p { m.mem p with downs := (m.mem p).downs.filter (!·.isEmpty) }
    (List.range n).foldl (fun m _ => log e m 0x0304 p.lnk.n 0 0 0) m

/-- Takes a request off its port and lets the port send what it held for the line (R279). -/
def memTake (e : Env) (m : M) (p : MPort) (r : MemReq) : M :=
  let m := m.setMem p { m.mem p with outstanding := (m.mem p).outstanding.erase r }
  memPump e p 1024 m

/-- One request at a memory link-down (Table 8.10, R415). -/
def memLost (e : Env) (m : M) (p : MPort) (r : MemReq) : M :=
  let (m, now) := memIssue e m p r
  if now then memReadDone e { m with free := m.free + 2 } r (lostData m) true false else m

/-- A memory link has gone down: every request outstanding or queued is reissued, answered poisoned or held (R414, R419). -/
def memDown (e : Env) (m : M) (p : MPort) : M :=
  let q := m.mem p
  let m := m.setMem p { q with outstanding := [], queue := [] }
  let m := (q.outstanding ++ q.queue).foldl (fun m r => memLost e m p r) m
  let lines := (m.mem p).held.map (·.line)
  let m := m.setMem p { m.mem p with downs := (m.mem p).downs ++ [lines] }
  log e m 0x0303 p.lnk.n (BitVec.ofNat 32 lines.length) 0 0

/-- A memory link has left INIT_CREDIT: the writes held are reissued before anything new (Table 8.10). -/
def memUpAgain (e : Env) (m : M) (p : MPort) : M :=
  let q := m.mem p
  let m := m.setMem p { q with held := [] }
  let m := q.held.foldl (fun m r => memPut e m p r) m
  memResumed e m p

end Sys2Proof.Machine
end

