-- ==== Sys2Proof/Machine/Ports.lean ====
section
/-!
DEFINITION. The host ports above their links: the checks of a request, sampling, barrier epochs, composing sticks, the hold queue of
QUIESCE, and what each port passes to the slices.
-/

namespace Sys2Proof.Machine

open Sys2Proof

/-! ### Sampling (R795 to R799) -/

/-- The reload value of a port's down-counter, and its LFSR after it (R796). -/
def reloadValue (c : Cfg) (lfsr : Word) : Nat × Word :=
  let n := 2 ^ c.smpExp.toNat
  if c.smpDither then (n / 2 + lfsr.toNat % n, Config.lfsrNext lfsr) else (n, lfsr)

/-- One counted request (R795, R797): it may be the sampled one. -/
def sampleRequest (e : Env) (m : M) (r : Req) : M :=
  let p := r.port.n
  if !m.modeBit mSample || !e.cfg.smpMask.getLsbD p then m
  else
    let left := Tab.get (fun _ => 0) m.prf.countdown p
    let lfsr := Tab.get (fun _ => (0 : Word)) m.prf.lfsr p
    let (n, lfsr') := reloadValue e.cfg lfsr
    let load (m : M) : M := m.setPrf fun x => { x with
      countdown := Tab.put (fun _ => 0) x.countdown p n, reload := Tab.put (fun _ => 0) x.reload p n
      lfsr := Tab.put (fun _ => (0 : Word)) x.lfsr p lfsr' }
    if left = 0 then load m
    else if left = 1 then
      let first := match r.op with
        | .barrier | .evictClean | .evictDirty | .flushLine | .invalLine => 7
        | .rdNt | .wrNt => 3
        | _ => 0
      let s : Sample := ⟨r.port, r.tag, r.agent, BitVec.ofNat 8 r.op.code, r.line, m.now, Tab.get (fun _ => 0) m.prf.reload p, first⟩
      load (m.setPrf fun x => { x with sampled := x.sampled ++ [s] })
    else m.setPrf fun x => { x with countdown := Tab.put (fun _ => 0) x.countdown p (left - 1) }

/-! ### The checks of a request (R426, R427) -/

/-- A reserved bit of the long header is 1 (R373, Tables 8.3 and 8.4).  A field that the tables give as 0 counts as reserved. -/
def hdrReserved (h : ReqHdr) (op : Op) : Bool :=
  h.rsv != 0 || (h.priv && !op.cfg)
    || (match op with
        | .wrLine | .evictDirty => h.opf != 0
        | .wrPart | .wrNt | .cndSt => h.opf.extractLsb' 8 43 != 0
        | .atom => h.flag || h.opf.extractLsb' 15 36 != 0
        | .cfgWr => h.flag || h.opf.extractLsb' 19 32 != 0
        | .cfgRd => h.flag || h.opf.extractLsb' 19 32 != 0 || h.cfgData != 0
        | .barrier => h.flag || h.opf != 0 || h.line != 0
        | _ => h.flag || h.opf != 0)

/-- The fields of an ATOM that are reserved (R224). -/
def atomBad (opf : BitVec 51) : Bool := decide (9 < atomOp opf) || atomSize opf == 3 || atomHint opf == 3
/-- Steps 9 and 10 of R426; the privilege of a configuration access is judged where it is served. -/
def fieldError (h : ReqHdr) (op : Op) : Option Nat :=
  match op with
  | .wrPart | .wrNt | .cndSt => if h.slotMap == 0 then some 0x0A else none
  | .atom =>
    if atomBad h.opf then some 0x07
    else if atomOffset h.opf % atomBytes (atomSize h.opf) ≠ 0 then some 0x06 else none
  | .cfgRd | .cfgWr => if h.cfgAddr.extractLsb' 0 2 != 0 then some 0x10 else none
  | _ => none

/-- Whether an eviction is one that a recovery interval accepts (R216, R411). -/
def recoverable (m : M) (r : Req) : Bool :=
  (heldLines m r.port).contains r.line || (m.port r.port).rolledBack.contains (r.agent, r.line)

/-- A request of a side released less than 1 ms ago is logged but not counted (R432). -/
def recentlyReleased (m : M) (r : Req) : Bool :=
  (m.port r.port).lastRelease.any fun x => x.1 == twinSide r.line && decide (m.now < x.2 + 50000)

/-- An ERR from the port for a violation, or none for the two codes that are no violation (Table 9.2). -/
def portErr (e : Env) (m : M) (r : Req) (code : Nat) : M :=
  let m := if r.op == .rsvLd then rsvUnarmed m r.agent r.line else m
  if code = 0x04 ∨ code = 0x0B ∨ code = 0x12 then errRsp e m r code
  else errViol e m r code (decide (code < 0x10) && !(code == 0x01 && recentlyReleased m r))

/-- Whether some slot outside slot_map has a mask bit (R375). -/
def maskSlot (h : ReqHdr) (op : Op) (mask : Mask) : Bool :=
  match op with
  | .wrPart | .wrNt | .cndSt => mask &&& ~~~(slotMask h.slotMap) != 0
  | _ => false

/-! ### Composing sticks (R293 to R298) -/

def M.stickAt (m : M) (p : HPort) (l : Line) : Option Stick := (m.port p).sticks.find? (·.line == l)
def M.updStick (m : M) (p : HPort) (l : Line) (f : Stick → Stick) : M :=
  m.setPort p { m.port p with sticks := (m.port p).sticks.map fun s => if s.line == l then f s else s }

/-- Whether the stick's attributes allow CMP_EARLY (R298). -/
def Stick.early (s : Stick) : Bool := s.replied && s.attrs.earlyAck && s.attrs.cls != 4

/-- A WR_NT merges into an open stick whose attributes are known (R293, R298). -/
def mergeStick (e : Env) (m : M) (r : Req) (s : Stick) : M :=
  let m := m.updStick r.port r.line fun s => { s with
    data := mergeBytes s.data r.data r.mask, mask := s.mask ||| r.mask, poison := s.poison || r.poison
    contrib := s.contrib ||| ((1 : BitVec 32) <<< (r.agent.toNat % 32))
    tags := s.tags ++ [(r.tag, r.agent, r.epoch, s.early)] }
  let m := if s.early && !r.silent then respond e m r.port r.tag [.cmpEarly r.tag] true else m
  match m.stickAt r.port r.line with
  | some s => if s.mask == fullMask then flushStick e m r.port r.line 0 false else m
  | none => m

/-- A WR_NT opens a stick and its notice goes to the slice (R293 to R295). -/
def openStick (e : Env) (m : M) (r : Req) : M :=
  let p := r.port
  let m := if (m.port p).sticks.length < 64 then m
    else
      match (m.port p).sticks with
      | [] => m
      | s :: rest => flushStick e m p (rest.foldl (fun b x => if x.tick < b.tick then x else b) s).line 6 false
  let s : Stick := ⟨r.line, r.mask, mergeBytes 0 r.data r.mask, r.poison, (1 : BitVec 32) <<< (r.agent.toNat % 32),
    [(r.tag, r.agent, r.epoch, false)], false, .unmapped, m.now⟩
  let place : Req := ⟨.stickFlush, p, 0, 0, r.line, 0, false, 0, 0, true, 0, m.now, 0, [], 0, false, none, false, true⟩
  let m := m.setPort p { m.port p with sticks := (m.port p).sticks ++ [s] }
  let m := demandStick (knock e m (sliceOf r.line)) r
  let m := m.setCoh fun c => { c with sliceSticks := c.sliceSticks ++ [⟨p, r.line, false⟩], waiting := c.waiting ++ [place] }
  let m := count e m p.lnk.island 0xF 1 (some r.agent)
  if r.mask == fullMask then flushStick e m p r.line 0 false else m

/-- One WR_NT: into its stick, into a new one, or into the wait for the reply.  It ends its agent's reservation and guard there, as any
request but CND_ST does (Table 5.6, R260; log entry 25). -/
def takeNt (e : Env) (m : M) (r : Req) : M :=
  let x := sliceOf r.line
  let m := clearSlots (endGuard m x r.agent) x true fun s => s.agent == r.agent && s.line == r.line
  match m.stickAt r.port r.line with
  | some s =>
    if s.replied then mergeStick e m r s
    else m.setPort r.port { m.port r.port with ntWait := (m.port r.port).ntWait ++ [r] }
  | none => openStick e m r
/-- Flushes what a port holds of a line before it forwards a request for it: the stick, and the WR_NTs that wait for its reply (R264,
R301). -/
def flushAhead (e : Env) (m : M) (p : HPort) (l : Line) : M :=
  let m := flushStick e m p l 3 false
  let ws := (m.port p).ntWait.filter (·.line == l)
  let m := m.setPort p { m.port p with ntWait := (m.port p).ntWait.filter (·.line != l) }
  ws.foldl (fun m r => flushStick e (openStick e m r) p l 3 false) m

/-- WR_NTs that waited for a reply or a stick go on, in order. -/
def pumpNt (e : Env) (m : M) (p : HPort) : M :=
  let q := m.port p
  let ready (r : Req) : Bool := match m.stickAt p r.line with
    | some s => s.replied
    | none => true
  match q.ntWait.find? ready with
  | none => m
  | some r =>
    let m := m.setPort p { q with ntWait := q.ntWait.erase r }
    if agentFenced e m r.agent then errRsp e m r 4 else takeNt e m r

/-- The span of a line for a stick-open notice, filled from the master table on a miss (R156, R295). -/
def fillSpan (e : Env) (m : M) (x : Nat) (f : Nat) : M :=
  let (lo, hi) := ratSpan e.cfg.rat f
  let m := count e m 16 6 1 none
  let keep := (m.spans x).filter fun s => decide (s.hi < lo) || decide (hi < s.lo)
  m.setSpans x ((⟨lo, hi, ratAttrs e.cfg.rat f, m.now, 0⟩ :: keep).take 8)

/-- The cycles of a slice so far are entered in its spans, before its divider changes (R160). -/
def spanCycles (m : M) (x : Nat) : M :=
  m.setSpans x ((m.spans x).map fun y => { y with cycles := y.cycles + sliceRate m x * (m.now - y.filled), filled := m.now })
/-- Whether the flush of the other port's stick for a line is still to be performed before a port's notice is answered (R296). -/
def stickBehind (m : M) (p : HPort) (l : Line) : Bool :=
  let mine (r : Req) : Bool := r.op == .stickFlush && r.line == l && r.port == p
  ((m.coh.waiting.takeWhile fun r => !mine r).any fun r => r.op == .stickFlush && r.line == l)
    || (m.txnOf l).any fun t => t.req.op == .stickFlush && t.req.port == p.other
/-- The attributes of a line at a stick-open notice; the WR_NTs that the notice stands for have looked them up (R163). -/
def noticeAttrs (e : Env) (m : M) (p : HPort) (l : Line) (tags : List Tag) : M × Attrs :=
  let (m, a) := match findSpan m l with
    | (m, some a) => (m, a)
    | (m, none) =>
      (fillSpan e (count e m (sliceOf l) 6 1 none) (sliceOf l) (folioOf l).toNat, ratAttrs e.cfg.rat (folioOf l).toNat)
  (m.setCoh fun c => { c with looked := c.looked ++ (tags.map fun t => (p, t)).filter fun x => !c.looked.contains x }, a)

/-- A WR_NT whose stick was flushed before the reply to its notice is answered CMP_EARLY when the reply comes (R298), unless it has been
answered already. -/
def lateEarly (e : Env) (p : HPort) (l : Line) (m : M) (tag : Tag) : M :=
  let flush (r : Req) : Bool := r.op == .stickFlush && r.port == p && r.line == l && !r.silent
  let has (r : Req) : Bool := flush r && r.answers.any fun x => x.1 == tag && !x.2.2.2
  let early (r : Req) : Req :=
    if flush r then { r with answers := r.answers.map fun x => if x.1 == tag then (x.1, x.2.1, x.2.2.1, true) else x } else r
  let waits (w : Waiter) : Bool := w.port == p && w.tag == tag && w.answer && !w.early
  let mark (g : GEntry) : GEntry :=
    if g.line == l then { g with waiters := g.waiters.map fun w => if waits w then { w with early := true } else w } else g
  let held := (m.coh.galley ++ m.coh.staging).any fun g => g.line == l && g.waiters.any waits
  if held || m.coh.waiting.any has || m.coh.txns.any fun t => has t.req then
    respond e (m.setCoh fun c => { c with
      waiting := c.waiting.map early, txns := c.txns.map fun t => { t with req := early t.req }
      galley := c.galley.map mark, staging := c.staging.map mark }) p tag [.cmpEarly tag] true
  else m

/-- The slice's reply to a stick-open notice (R295 to R298), in the order of the notices.  It waits while the other port's stick is not
flushed. -/
def stickReply (e : Env) (m : M) (p : HPort) (l : Line) : M :=
  if stickBehind m p l then m
  else
    match (m.port p).unreplied.find? (·.1 == l), m.stickAt p l with
    | some u, _ =>
      let m := m.setPort p { m.port p with unreplied := (m.port p).unreplied.erase u }
      let (m, a) := noticeAttrs e m p l u.2
      if a.mapped && a.cls != 4 && a.earlyAck then u.2.foldl (lateEarly e p l) m else m
    | none, none => m
    | none, some s =>
      if s.replied then m
      else
        let (m, a) := noticeAttrs e m p l (s.tags.map (·.1))
        let m := m.updStick p l fun s => { s with replied := true, attrs := a }
        if !a.mapped || a.cls == 4 then flushStick e m p l 16 false
        else if a.earlyAck then
          let m := s.tags.foldl (fun m (tag, _, _, _) => respond e m p tag [.cmpEarly tag] true) m
          m.updStick p l fun s => { s with tags := s.tags.map fun (tag, a, ep, _) => (tag, a, ep, true) }
        else m

/-! ### Admission (R273 to R276, R299, R404) -/

/-- Closed epochs of an agent that have not counted down. -/
def closedEpochs (x : Epochs) : Nat := (x.counts.filter fun c => c.1 < x.opened).length

/-- A BARRIER_C closes its agent's epoch (R274). -/
def barrier (e : Env) (m : M) (r : Req) : M :=
  let x := (m.port r.port).epochsOf r.agent
  let m := m.setPort r.port ((m.port r.port).setEpochs r.agent { x with
    opened := x.opened + 1, barriers := x.barriers ++ [(x.opened, r.tag)] })
  let m := flushSticks e m r.port (fun s => s.contrib.getLsbD (r.agent.toNat % 32)) 2 false
  finishBarriers e r.port r.agent 9 m

/-- A request leaves the port: into its epoch, its stick or its slice, or to the registers (R273, R276, R293, R299).  `now` says that the agent's hold queue is
passed. -/
def letIn (e : Env) (m : M) (r : Req) (now : Bool) : M :=
  let x := (m.port r.port).epochsOf r.agent
  if (!now && !x.hold.isEmpty) || (r.op == .barrier && 7 ≤ closedEpochs x) then
    m.setPort r.port ((m.port r.port).setEpochs r.agent { x with hold := if now then r :: x.hold else x.hold ++ [r] })
  else if r.op.cfg then m.setPort r.port { m.port r.port with cfgReady := (m.port r.port).cfgReady ++ [r] }
  else if r.op == .barrier then (if r.silent then m else barrier e m r)
  else
    let (m, r) := enterEpoch m r
    if r.op == .wrNt then takeNt e m r else arrive e (flushAhead e m r.port r.line) r

/-- Releases what an agent's hold queue can give up (R276). -/
def pumpHold (e : Env) (p : HPort) (a : Agent) : Nat → M → M
  | 0, m => m
  | n + 1, m =>
    let x := (m.port p).epochsOf a
    match x.hold with
    | [] => m
    | r :: rest =>
      if r.op == .barrier && 7 ≤ closedEpochs x then m
      else
        let m := m.setPort p ((m.port p).setEpochs a { x with hold := rest })
        pumpHold e p a n (if !r.op.cfg && agentFenced e m r.agent then errRsp e m r 4 else letIn e m r true)

/-- Releases the requests that QUIESCE held, in arrival order (R406). -/
def releaseQuiesce (e : Env) (m : M) (p : HPort) : M :=
  if m.holding then m
  else
    let q := (m.port p).hold
    q.foldl (fun m r => if agentFenced e m r.agent then errRsp e m r 4 else letIn e m r false)
      (m.setPort p { m.port p with hold := [] })

/-- A request whose last bit has arrived (R408): the checks of R426, the sampler, and the hold queue or the way on.  `serve` is what
serves a configuration access. -/
def request (e : Env) (m : M) (h : ReqHdr) (op : Op) (mask : Mask) (data : Data) (cfg : M → Req → M) : M :=
  let p := h.port
  let l := p.lnk
  let r : Req := ⟨op, p, h.tag, h.agent, h.line, h.opf, h.flag, mask, data, h.priv, 0, m.now, 0, [], 0, false, none,
    false, false⟩
  let q := m.port p
  if (m.link l).st != .active then m
  else if agentPort h.agent != p then violate e m l 0x13 (some h.agent) h.tag op.code true true
  else if q.outstanding.any (fun x => x.1 == h.tag) then violate e m l 0x12 (some h.agent) h.tag op.code true true
  else if maskSlot h op mask then violate e m l 0x11 (some h.agent) h.tag op.code true true
  else
    let m := m.setPort p { q with outstanding := q.outstanding ++ [(h.tag, h.agent, m.mode.gen)] }
    let m := count e m l.island 6 1 (some h.agent)
    let m := if op.cfg then m else sampleRequest e m r
    let coh := !op.cfg && op != .barrier
    if !op.cfg && (linkFenced e m l || agentFenced e m h.agent) then portErr e m r 0x04
    else if !q.agentMap.getLsbD (h.agent.toNat % 32) then portErr e m r 0x03
    else if q.interval.isSome && !op.cfg && !(op.isEvict && recoverable m r) then portErr e m r 0x0B
    else if hdrReserved h op then portErr e m r 0x09
    else
      match fieldError h op with
      | some c => portErr e m r c
      | none =>
        if coh && !primaryFor m h.line then portErr e m r 0x01
        else if op.cfg then (if ((m.port p).epochsOf r.agent).hold.isEmpty then cfg m r else letIn e m r false)
        else
          let m := if op == .barrier then count e m l.island 0xB 1 (some h.agent) else m
          if m.holding && !op.isEvict then m.setPort p { m.port p with hold := (m.port p).hold ++ [r] }
          else letIn e m r false

/-- The agents with anything in their hold queues. -/
def holdAgents (m : M) (p : HPort) : List Agent :=
  ((m.port p).epochs.filter fun kv => !kv.2.hold.isEmpty).map fun kv => BitVec.ofNat 6 (32 * p.n + kv.1)

/-- What the ports and the slices can do by themselves after a command, once over. -/
def pumpOnce (e : Env) (m : M) : M :=
  let m := settle e m
  let m := [HPort.hpa, .hpb].foldl (fun m p =>
    let m := (holdAgents m p).foldl (fun m a => pumpHold e p a (((m.port p).epochsOf a).hold.length + 1) m) m
    (m.port p).ntWait.foldl (fun m _ => pumpNt e m p) m) m
  settle e m

end Sys2Proof.Machine
end

