-- ==== Sys2Proof/Machine/Modes.lean ====
section
/-!
DEFINITION. The modes: when the entry into one or the exit from one has finished (Table 14.2), and a change of the mode register.
-/

namespace Sys2Proof.Machine

open Sys2Proof

/-- The tag entries with their keys. -/
def tagList (m : M) : List (Nat × TagEntry) := m.coh.tags
/-- Line `k` of the folio of a listed tag entry. -/
def keyLine (kv : Nat × TagEntry) (k : Nat) : Line := tagLine kv.2 (kv.1 / 524288) k

/-- The Dirty lines of the folios that the device serves as primary (R641). -/
def dirtyPrimary (m : M) : List Line :=
  (tagList m).flatMap fun kv =>
    if kv.2.mirrorFolio then []
    else ((List.range 32).filter fun k => decide (2 ≤ kv.2.sector k) && primaryFor m (keyLine kv k)).map (keyLine kv)
/-- The end of DRAIN's entry: no such line, and no RETAIN entry (Table 14.2, R542, R641). -/
def drainClean (m : M) : Bool := (dirtyPrimary m).isEmpty && !(m.coh.galley.any fun g => g.kind == .retain)

def changedGen (m : M) (n : Nat) : Nat := Tab.get (fun _ => 0) m.mode.changed n

/-- Whether some waiter of an entry that `f` holds of still awaits its answer. -/
def anyWaiter (m : M) (f : Waiter → Bool) : Bool :=
  (m.coh.galley ++ m.coh.staging).any fun g => g.waiters.any fun w => w.answer && !w.early && f w

/-- Requests that passed a port before a change of the modes and whose final response has not left (Table 14.2). -/
def passedBefore (m : M) (p : HPort) (gen : Nat) : Bool :=
  (m.port p).outstanding.any fun (tag, _, g) =>
    decide (g < gen) && !((m.port p).hold.any fun r => r.tag == tag) && !(m.port p).ackAfterEvict.contains tag
      && !(m.port p).voided.contains tag
      && !(m.coh.txns.any fun t => (t.phase == .granted || t.phase == .rollback) && t.req.port == p && t.req.tag == tag)

/-- Whether the last change of mode `n` has finished (Table 14.2); INK_CAP finishes at an epoch boundary only. -/
def finished (m : M) (n : Nat) : Bool :=
  let on := m.modeBit n
  let g := changedGen m n
  if n = mMirror then
    if on then m.twin.st != .paired || m.twin.catchup == 0
    else !(m.coh.sweeps.any fun s => s.2 == .mirrorExit) && !(m.mir.outstanding.any fun o => !o.fetch && decide (o.gen < g))
  else if n = mBroadcast then
    !(m.coh.txns.any fun t => decide (t.gen < g) && t.phase != .attr && t.phase != .classWb && t.phase != .held && t.phase != .granted && t.phase != .rollback)
      && !anyWaiter m fun w => decide (w.gen < g)
  else if n = mFar then
    !(m.coh.txns.any fun t => decide (t.gen < g) && t.req.op == .atom && t.phase != .attr && t.phase != .classWb && t.phase != .held)
      && !anyWaiter m fun w => decide (w.gen < g) && w.old.isSome
  else if n = mInkCap then false
  else if n = mProof then on || !(m.proof.runs.any fun r => r.state == 1)
  else if n = mDrain then !on || drainClean m
  else if n = mSample then on || m.prf.sampled.isEmpty
  else if n = mQuiesce then
    if on then [HPort.hpa, .hpb].all fun p => !passedBefore m p g && (m.port p).sticks.isEmpty
    else [HPort.hpa, .hpb].all (fun p => (m.port p).hold.isEmpty) && !m.mode.proofReleasing
  else true

/-- Ends every DRAIN_START with PARTIAL when DRAIN is cleared before its end (R641). -/
def endDrains (e : Env) (m : M) (status : Nat) : M :=
  (m.jpc.accepted.filter fun a => a.opcode == 0x0402).foldl (fun m a =>
    finishCmd e m a.id status (resAt 8 (a.counts.getD 0 0))) m

/-- One change of the mode register (R689): the modes in `set` and `clear` that are not already so change, and each is settling
until its change has finished (R686, R691). -/
def writeModes (e : Env) (m : M) (set clear : BitVec 12) : M :=
  let old := m.modeActive
  let new := (old ||| set) &&& ~~~clear
  let diff := old ^^^ new
  if diff == 0 then m
  else
    let gen := m.mode.gen + 1
    let changed := (List.range 12).foldl (fun t n => if diff.getLsbD n then Tab.put (fun _ => 0) t n gen else t) m.mode.changed
    let m := m.setMode fun x => { x with active := new &&& 0x7FF, gen := gen, changed := changed }
    let m := if diff.getLsbD mDrain && !new.getLsbD mDrain then endDrains e m 0x1A else m
    if diff.getLsbD mDrain && new.getLsbD mDrain then m.setMode fun x => { x with drainedSince := 0 } else m

/-- Sets the settling bit of every mode in `changed` whose change has not finished, and clears the others of them (R686). -/
def settleModes (m : M) (changed : BitVec 12) : M :=
  let open_ : BitVec 12 := (List.range 12).foldl (fun x n =>
    if changed.getLsbD n && !finished m n then x ||| ((1 : BitVec 12) <<< n) else x) 0
  m.setMode fun x => { x with settling := (x.settling &&& ~~~changed) ||| open_ }

end Sys2Proof.Machine
end

