-- ==== Sys2Proof/Machine/Twin.lean ====
section
/-!
DEFINITION. The twin pair (chapter 11): FAILOVER_EVT, the entries into each pair state, shedding, promotion, beacons, and the mirror
messages of the primary and of the holder.
-/

namespace Sys2Proof.Machine

open Sys2Proof

def PairState.n : PairState → Nat
  | .unpaired => 0 | .hello => 1 | .shed => 2 | .paired => 3 | .suspect => 4 | .split => 5 | .adopted => 6
  | .isolated => 7 | .releasing => 8 | .deposed => 9

/-- The island of the CKL, the source of the pair's log entries. -/
def srcCkl : Nat := 29

/-! ### FAILOVER_EVT (R402) -/

def nextEvt (s : Tag) : Tag := if s == 0xFFF then 1 else s + 1
def prevEvt (s : Tag) : Tag := if s == 1 then 0xFFF else s - 1
/-- A new FAILOVER_EVT leaves on every host port that is up; a RELEASE is remembered for R432. -/
def sendFailover (e : Env) (m : M) (adopt side : Bool) : M :=
  let seq := m.mir.failoverSeq
  let m := m.setMir fun r => { r with failoverSeq := nextEvt seq, lastFailover := some (adopt, side) }
  [HPort.hpa, .hpb].foldl (fun m p =>
    let m := send e m p.lnk [.failover seq adopt side e.fuse.serial]
    if adopt then m
    else m.setPort p { m.port p with
      lastRelease := (side, m.now) :: (m.port p).lastRelease.filter fun x => x.1 != side }) m
/-- The most recent FAILOVER_EVT is sent again when a host link leaves INIT_CREDIT. -/
def resendFailover (e : Env) (m : M) (p : HPort) : M :=
  match m.mir.lastFailover with
  | none => m
  | some (adopt, side) => send e m p.lnk [.failover (prevEvt m.mir.failoverSeq) adopt side e.fuse.serial]

/-! ### The mirror as the primary keeps it (R521 to R529, R742) -/

/-- Ends every wait for the twin: nothing is outstanding and nothing waits to be sent. -/
def clearMirror (m : M) : M :=
  m.setMir fun r => { r with outstanding := [], busyRetry := [], quotaWait := [], resend := [], whole := [], naks := [], releases := [] }

/-- The writes that wait for the twin are written through (R535, R541): answered at the memory acknowledgement. -/
def writeWaiting (e : Env) (m : M) : M :=
  let waits (g : GEntry) : Bool := g.kind != .mirrorIn && (g.mirWait || g.waiters.any fun w => w.mtag.isSome)
  (m.coh.galley.filter waits).foldl (fun m g =>
    let m := m.updG g.line fun g => { g with
      mirWait := false, mirFirst := false, vers := none
      waiters := g.waiters.map fun w => if w.mtag.isSome then { w with mtag := none, stage := 0, mem := true } else w }
    if g.wanted == .through then finishG e m g.line else cleanLine e m g.line []) (clearMirror m)

/-- Cleans a line: it is written to memory, and the writes waiting on its mirror are answered then (R525). -/
def cleanForMirror (e : Env) (m : M) (l : Line) : M :=
  let m := m.setMir fun r => { r with
    resend := r.resend.erase l, whole := r.whole.erase l, busyRetry := r.busyRetry.filter fun x => x.1 != l
    quotaWait := r.quotaWait.filter fun x => x.1 != l, naks := r.naks.filter fun x => x.1.1 != l }
  if 2 ≤ sectorOf e m l then cleanLine e m l [] else m

/-- The MIR_NAKs, or the MIR_LOSTs where `lost`, of a line's newest version. -/
def nakCount (m : M) (l : Line) (lost : Bool) : Nat := ((m.mir.naks.find? fun x => x.1 == (l, lost)).map (·.2)).getD 0
/-- Counts one more of them. -/
def countNak (m : M) (l : Line) (lost : Bool) : M :=
  m.setMir fun r => { r with naks := ((l, lost), nakCount m l lost + 1) :: r.naks.filter fun x => x.1 != (l, lost) }

/-- Asks for the whole line to be sent from the array (R525, R528, R742). -/
def sendWhole (m : M) (l : Line) : M :=
  m.setMir fun r => { r with whole := if r.whole.contains l then r.whole else r.whole ++ [l], resend := r.resend.erase l }

/-- has_mirror of R526. -/
def hasMirror (m : M) (kv : Nat × TagEntry) : Bool :=
  (List.range 32).any fun k => kv.2.sector k == 3 || m.mir.outstanding.any fun o => !o.fetch && o.line == keyLine kv k
/-- quota_victim of R526 over the set of a line, `f` the way of its folio. -/
def quotaVictim (e : Env) (m : M) (l : Line) (f : Nat) : Option Nat :=
  ((List.range 16).foldl (fun (best : Option (Nat × Nat)) w =>
    let key := tagKey e.fuse.variant l w
    let t := m.tagAt key
    if w = f || t.mirrorFolio || !hasMirror m (key, t) then best
    else
      let d := t.dirtyCount
      if d = 0 then best
      else
        match best with
        | none => some (w, d)
        | some (b, bd) =>
          if d < bd || (d = bd && (m.tagAt (tagKey e.fuse.variant l b)).age < t.age) then some (w, d) else best) none).map (·.1)

/-- The writes waiting on one message of a line wait for the line's next one instead. -/
def rebind (m : M) (l : Line) (old new : Tag) : M :=
  m.updG l fun g => { g with waiters := g.waiters.map fun w => if w.mtag == some old then { w with mtag := some new } else w }

/-- Whether an answered message was the newest version of its line (R522, R525), and the version that is newest now. -/
def newestOf (m : M) (l : Line) (t : Tag) : Bool :=
  match m.galleyOf l with
  | some g => if g.kind == .mirrorIn then false else
      match g.vers with
      | some v => v == t
      | none => !g.mirWait && !(m.mir.outstanding.any fun o => o.line == l && !o.fetch)
  | none => !(m.mir.outstanding.any fun o => o.line == l && !o.fetch)

/-- The galley entry of a line loses its newest version, if `t` is that: the write waits to be sent again. -/
def unsent (m : M) (l : Line) (t : Tag) : M :=
  rebind (m.updG l fun g => if g.kind == .mirrorIn || g.vers != some t then g else { g with vers := none, mirWait := true }) l t 0

/-- An answer other than MIR_ACK to a MIR_WRITE of a line (R525, R742): `act` is what the newest version's answer asks for. -/
def notAcked (e : Env) (m : M) (l : Line) (t : Tag) (lost : Bool) (act : M → M) : M :=
  if !newestOf m l t then
    let v := match m.galleyOf l with
      | some g => g.vers.getD 0
      | none => 0
    flushRelease e (rebind m l t v) l
  else
    let m := countNak (unsent m l t) l lost
    if 4 ≤ nakCount m l lost then cleanForMirror e m l else act m

/-- Takes an answered message off the list of those outstanding. -/
def takeAnswer (m : M) (t : Tag) : Option (M × MirOut) :=
  (m.mir.outstanding.find? fun o => o.mtag == t).map fun o =>
    (m.setMir fun r => { r with outstanding := r.outstanding.erase o, answered := r.answered + 1 }, o)

/-- Lines of a slice that the catch-up pass still has to send (R528): own-side sectors in Dirty, not mirrored, in the scope, with no
MIR_WRITE outstanding or waiting. -/
def catchupLeft (e : Env) (m : M) (x : Nat) : List Line :=
  (tagList m).flatMap fun kv =>
    if kv.2.mirrorFolio || kv.1 / 524288 != x then []
    else ((List.range 32).filter fun k =>
      let l := keyLine kv k
      kv.2.sector k == 2 && canMirror e m m.modeActive l (ratAttrs e.cfg.rat (folioOf l).toNat).mirrorReq
        && !(m.mir.outstanding.any fun o => o.line == l && !o.fetch) && !m.mir.whole.contains l && !m.mir.resend.contains l
        && !(m.mir.busyRetry.any fun x => x.1 == l) && !(m.mir.quotaWait.any fun x => x.1 == l) && !(m.coh.daReads.any fun r => r.line == l && r.use == .resend)
        && (m.galleyOf l).isNone).map (keyLine kv)

/-- Starts the catch-up pass of every slice (R528). -/
def startCatchup (m : M) : M :=
  if m.twin.st == .paired && m.modeBit mMirror then m.setTwin fun t => { t with catchup := 0xFFFF } else m

/-- The exit sweep of MIRROR (R692): Dirty, mirrored becomes Dirty, not mirrored, and the twin's copies are released.  Writes whose
MIR_WRITE has not been sent are not mirrored any more. -/
def mirrorExit (e : Env) (m : M) : M :=
  let m := sweepLookups e (m.setTwin fun t => { t with catchup := 0 })
  let lines := (m.mir.resend ++ m.mir.busyRetry.map (·.1) ++ m.mir.quotaWait.map (·.1)).filter fun l => (m.galleyOf l).isSome
  let m := m.setMir fun r => { r with resend := [], busyRetry := [], quotaWait := [], whole := [], naks := [] }
  let m := lines.foldl (fun m l => finishG e (m.updG l fun g => { g with
    mirWait := false, mirFirst := false, vers := none
    waiters := g.waiters.map fun w => if w.mtag == some 0 then { w with mtag := none } else w }) l) m
  let m := (tagList m).foldl (fun m kv =>
    if kv.2.mirrorFolio then m
    else
      (List.range 32).foldl (fun m k =>
        let l := keyLine kv k
        if (m.tagAt kv.1).sector k == 3 && ownSide m l then
          mirRelease e (putTag e m kv.1 ((m.tagAt kv.1).setSector k 2)) l
        else m) m) m
  m.setCoh fun c => { c with sweeps := (List.range 16).foldl (fun s x =>
    if s.contains (x, .mirrorExit) then s else s ++ [(x, .mirrorExit)]) c.sweeps }

/-- The MIR_WRITEs that wait and can be sent: those of waiting writes, and whole lines once their array write is complete.  RELEASING
sends what was waiting when it began, as no rule ends those writes otherwise (DEDUCED, log entry 97). -/
def pumpMirror (e : Env) (m : M) : M :=
  if !m.mirrorUp then m
  else
    let ready := m.mir.quotaWait.filter fun x => x.2.all fun l => decide (sectorOf e m l < 2)
    let m := m.setMir fun r => { r with
      quotaWait := r.quotaWait.filter fun x => !ready.contains x
      resend := r.resend ++ (ready.map (·.1)).filter fun l => !r.resend.contains l }
    let m := m.mir.resend.foldl (fun m l =>
      let m1 := m.setMir fun r => { r with resend := r.resend.erase l }
      match m.galleyOf l with
      | none => if 2 ≤ sectorOf e m l then sendWhole m1 l else m1
      | some g =>
        if g.loading || g.wanted == .victim then (if g.wanted == .victim then m1 else m)
        else
          let (m2, t) := mirSend e m1 l g.data g.mask g.poison g.memPort
          if t == 0 then m2 else rebind m2 l 0 t) m
    m.mir.whole.foldl (fun m l =>
      if sectorOf e m l < 2 || !ownSide m l || !m.modeBit mMirror then m.setMir fun r => { r with whole := r.whole.erase l }
      else
        let busy := match m.galleyOf l with
          | some g => g.daBusy || g.daAgain || g.loading || g.rmw
          | none => false
        if busy || 4095 ≤ m.mir.outstanding.length then m
        else
          queueRead e (m.setMir fun r => { r with whole := r.whole.erase l }) l .resend ((findTag e m l false).getD 0)
            (sectorOf e m l)) m

/-- DURABILITY_DEGRADED at each change of CKL_PAIR_STAT.degraded (R529). -/
def degraded (m : M) : Bool := m.modeBit mMirror && (m.twin.st != .paired || m.twin.catchup != 0)
def showDegraded (e : Env) (m : M) : M :=
  if degraded m == m.mir.degradedShown then m
  else postEvt e (m.setMir fun r => { r with degradedShown := degraded m }) 0x0020 0 (BitVec.ofNat 352 (bit (degraded m)))

/-! ### Control messages (R502, R505) -/

/-- Sends a CTL message through CKC_TX: its ctl_seq rises by 1 for each, and it states the sender's pair state and side (Table 11.3). -/
def sendCtl (e : Env) (m : M) (x : Ctl → Msg) : M :=
  let c : Ctl := ⟨m.mir.ctlSeq, BitVec.ofNat 4 m.twin.st.n, m.pins.pairSide⟩
  let m := passOpen (m.setMir fun r => { r with ctlSeq := c.seq + 1 }) 13
  send e m .ckl [x c]

/-- The device's PAIR_HELLO; its pair_state is the state in which the attempt started (DEDUCED, log entry 40). -/
def myHello (e : Env) (m : M) (seq : Tag) : Hello :=
  ⟨seq, BitVec.ofNat 4 m.twin.from_.n, m.pins.pairSide, e.fuse.grade.setWidth 4, e.fuse.stepping, ratCrc e.cfg.rat, 1, e.fuse.serial⟩

/-- The first check of Table 11.5 that fails. -/
def helloRefusal (a b : Hello) : Option Nat :=
  let bad (h : Hello) : Bool := serialCheck (h.serial.setWidth 112) != h.serial.extractLsb' 112 16
  if a.proto != 1 || b.proto != 1 then some 1
  else if bad a || bad b then some 2
  else if a.serial == b.serial then some 3
  else if a.variant != b.variant then some 4
  else if a.stepping != b.stepping then some 5
  else if a.side == b.side then some 6
  else if a.ratCrc != b.ratCrc then some 7
  else if a.pairState == 6 && b.pairState == 6 then some 8
  else none

def pairEvt (e : Env) (m : M) (code : BitVec 16) (payload : Nat) : M :=
  postEvt e m code 1 (BitVec.ofNat 352 payload)
/-- The final results of a PAIR_START: the twin's serial number, or 0 (Table 13.7). -/
def pairResult (m : M) : BitVec 448 :=
  match m.twin.hello with
  | some h => resAt 8 h.serial.toNat
  | none => 0

/-! ### Attempts (R509 to R516) -/

/-- An attempt starts: HELLO, hold_down cleared, the CKL island woken (R509, R510), which leaves a window out of the clock check (R102). -/
def startAttempt (e : Env) (m : M) (cmd limitMs : Nat) : M :=
  let up := (m.link .ckl).st == .active
  let m := m.setTwin fun t => { t with
    st := .hello, from_ := t.st, attemptCmd := cmd, attemptStart := m.now, attemptLimit := limitMs * 50000
    cklWasActive := up, helloSent := false, shedPhase := 0, shedSent := false, shedSeen := false }
  let m := setHoldDown e m .ckl false
  if m.isl.run.getLsbD 29 then m
  else m.setIsl fun i => { i with run := i.run ||| ((1 : Word) <<< 29), excluded := i.excluded ||| ((1 : Word) <<< 29) }

/-- Back to the state in which the attempt started; requests held in phase 2 are served (R511, R516). -/
def endAttempt (e : Env) (m : M) : M :=
  let m := setHoldDown e m .ckl true
  m.setTwin fun t => { t with st := t.from_, shedPhase := 0, shedSent := false, shedSeen := false, helloSent := false, hello := none }

/-- The attempt is refused (R511). -/
def refuseAttempt (e : Env) (m : M) (reason : Nat) : M :=
  let m := sendCtl e m fun c => .pairRefuse c reason
  let cmd := m.twin.attemptCmd
  let m := log e m 0x0602 srcCkl (BitVec.ofNat 32 reason) 0 0
  let m := pairEvt e m 0x0022 reason
  let m := endAttempt e (m.setTwin fun t => { t with lastRefusal := BitVec.ofNat 4 reason })
  finishCmd e m cmd 0x13 (conflictResult m (0x100 + reason))

/-- The attempt is abandoned (R516): cause 1 the CKL down, 2 a firmware restart, 3 the attempt limit. -/
def abandonAttempt (e : Env) (m : M) (cause : Nat) : M :=
  if m.twin.st != .hello && m.twin.st != .shed then m
  else
    let cmd := m.twin.attemptCmd
    let was := m.twin.cklWasActive
    let res := pairResult m
    let m := log e (endAttempt e m) 0x0603 srcCkl (BitVec.ofNat 32 cause) 0 0
    let m := if m.jpc.fw == .running then pairEvt e m 0x0023 cause else m
    finishCmd e m cmd (if cause = 3 && was then 0x18 else 0x19) res

/-- Turns away requests that the device no longer serves: ERR NOT_PRIMARY, neither logged nor counted (R515, R552). -/
def turnAway (e : Env) (m : M) (r : Req) : M :=
  match r.op with
  | .stickFlush => r.answers.foldl (fun m (tag, ag, ep, early) =>
      errRsp e m { r with op := .wrNt, tag := tag, agent := ag, epoch := ep, silent := r.silent || early } 1) m
  | .rsvLd => rsvUnarmed (errRsp e m r 1) r.agent r.line
  | _ => if r.op.host then errRsp e m r 1 else m
/-- The waiting requests for the lines that `p` names are turned away. -/
def turnAwayAll (e : Env) (m : M) (p : Line → Bool) : M :=
  let rs := m.coh.waiting.filter fun r => p r.line
  rs.foldl (turnAway e) (m.setCoh fun c => { c with waiting := c.waiting.filter fun r => !p r.line })
/-- The sticks for the lines that `p` names are flushed. -/
def flushLines (e : Env) (m : M) (p : Line → Bool) (cause : Nat) : M :=
  [HPort.hpa, .hpb].foldl (fun m q => flushSticks e m q (fun s => p s.line) cause false) m

/-- With neither DRAIN nor QUIESCE set, no channel stays in self-refresh (R83). -/
def leaveAllSref (m : M) : M :=
  if m.modeBit mDrain || m.modeBit mQuiesce then m else (List.range 8).foldl leaveSref m
/-- DRAIN is cleared where the pair had set it (R535, R545). -/
def clearPairDrain (e : Env) (m : M) : M :=
  if m.twin.drainByPair then
    leaveAllSref (settleModes (writeModes e (m.setTwin fun t => { t with drainByPair := false }) 0 0x100) 0x100)
  else m

/-- Entry into PAIRED from SHED (R515, R545). -/
def enterPaired (e : Env) (m : M) : M :=
  let cmd := m.twin.attemptCmd
  let res := pairResult m
  let serial := match m.twin.hello with
    | some h => h.serial
    | none => 0
  let m := m.setTwin fun t => { t with
    st := .paired, hello := none, shedPhase := 0, shedSent := false, shedSeen := false, frozen := false, drainOwn := false, drainTwin := false
    beaconLost := false, noRelay := false }
  let m := sendFailover e m false (!m.pins.pairSide)
  let m := flushLines e m (fun l => !ownSide m l) 16
  let m := turnAwayAll e m fun l => !ownSide m l
  let m := log e m 0x0601 srcCkl 0 0 (serial.setWidth 64)
  let m := pairEvt e m 0x0021 serial.toNat
  finishCmd e (startCatchup (clearPairDrain e m)) cmd 0 res

/-! ### Shedding (R513, R514, R550) -/

/-- The lines that the device still holds Dirty of the side it is giving up. -/
def shedDirty (m : M) : Bool :=
  ((tagList m).any fun kv => !kv.2.mirrorFolio && (List.range 32).any fun k =>
      decide (2 ≤ kv.2.sector k) && shedding m (keyLine kv k))
    || ((m.coh.galley ++ m.coh.staging).any fun g => g.kind != .mirrorIn && shedding m g.line)

/-- The senior commits once both SHED_DONEs have passed (R514). -/
def tryCommit (e : Env) (m : M) : M :=
  if m.twin.st == .shed && m.twin.senior && m.twin.shedSent && m.twin.shedSeen then
    enterPaired e (sendCtl e m .pairCommit)
  else m

/-- Phase 2 goes on as far as it can: back-invalidation, then every sector Invalid, then SHED_DONE or RELEASE_HALF. -/
def pumpShed (e : Env) (m : M) : M :=
  if m.twin.shedPhase != 2 || m.twin.shedSent then m
  else
    let m := m.coh.dir.foldl (fun m kv =>
      let d := m.dirAt kv.1
      if !d.live || !shedding m d.lineTag || !d.idle m then m
      else if 16 ≤ trackers m (kv.1 / 131072) then m
      else
        let d := { d with presence := if d.st == .S then d.presence &&& ~~~(fenceMask e m) else d.presence }
        startTracker e (m.setDir kv.1 .empty) d) m
    let left := (m.coh.dir.any fun kv => kv.2.live && shedding m kv.2.lineTag)
      || (m.coh.txns.any fun t => shedding m t.req.line)
      || ((m.coh.galley ++ m.coh.staging).any fun g => g.kind != .mirrorIn && shedding m g.line)
    if left || m.jpc.fw != .running then m
    else
      let m := (tagList m).foldl (fun m kv =>
        if !kv.2.mirrorFolio && shedding m (keyLine kv 0) then putTag e m kv.1 { m.tagAt kv.1 with sectors := 0 } else m) m
      let m := m.setTwin fun t => { t with shedSent := true }
      if m.twin.st == .shed then tryCommit e (sendCtl e m .shedDone)
      else sendCtl e m .releaseHalf

/-- Phase 2 of a shed starts, once no Dirty line of the side remains. -/
def startPhase2 (e : Env) (m : M) : M :=
  if m.twin.shedPhase != 1 || shedDirty m then m
  else pumpShed e ((flushLines e m (shedding m) 16).setTwin fun t => { t with shedPhase := 2 })

/-- Whether the device holds anything at all of the side that it gives up (R513). -/
def holdsSide (m : M) : Bool :=
  shedDirty m || (m.coh.dir.any fun kv => kv.2.live && shedding m kv.2.lineTag)
    || (m.coh.txns.any fun t => shedding m t.req.line) || (m.coh.waiting.any fun r => shedding m r.line)

/-- A shed starts: the writes of the side go through from now on; a device that holds nothing of it is done at once. -/
def startShed (e : Env) (m : M) : M :=
  let m := m.setTwin fun t => { t with shedPhase := 1, shedSent := false }
  let m := flushLines e m (shedding m) 16
  if holdsSide m then m else startPhase2 e m

/-- Both hellos are there: the checks, and SHED or the refusal (R510 to R513). -/
def checkHellos (e : Env) (m : M) : M :=
  if m.twin.st != .hello || !m.twin.helloSent then m
  else
    match m.twin.hello with
    | none => m
    | some h =>
      match helloRefusal (myHello e m 0) h with
      | some reason => refuseAttempt e m reason
      | none =>
        let senior := decide ((e.fuse.serial.setWidth 112).toNat < (h.serial.setWidth 112).toNat)
        let same := m.mir.serial == h.serial
        let m := m.setMir fun r => { r with
          serial := h.serial, beaconKnown := r.beaconKnown && same, heard := if same then r.heard else none }
        startShed e (m.setTwin fun t => { t with st := .shed, senior := senior })

/-- The CKL is ACTIVE in HELLO: the hello is sent (R510). -/
def sayHello (e : Env) (m : M) : M :=
  if m.twin.st != .hello || m.twin.helloSent || (m.link .ckl).st != .active || m.jpc.fw != .running then m
  else
    let m := m.setTwin fun t => { t with helloSent := true, cklWasActive := true }
    checkHellos e (sendCtl e m fun c => .pairHello (myHello e m c.seq))

/-! ### Promotion (R536, R537, R551) -/

/-- The promotion sweep over every tag entry; galley entries of mirror copies become entries of the device's own. -/
def promote (e : Env) (m : M) : M :=
  let m := sweepLookups e m
  let m := (tagList m).foldl (fun m kv =>
    let t := kv.2
    let lines := (List.range 32).filter fun k => decide (2 ≤ t.sector k) && (t.mirrorFolio || t.sector k == 3)
    if lines.isEmpty && !t.mirrorFolio then m
    else
      let t := lines.foldl (fun t k => t.setSector k 2) t
      let m := putTag e m kv.1 (if t.mirrorFolio then { t with mirrorFolio := false, adopted := true } else t)
      m.setMir fun r => { r with promoted := r.promoted ++ (lines.map (keyLine kv)).filter fun l => !r.promoted.contains l }) m
  let m := m.setCoh fun c => { c with
    galley := c.galley.map fun g => if g.kind == .mirrorIn then { g with kind := .retain, nextKind := none, acks := [], base := 2 } else g
    sweeps := (List.range 16).foldl (fun s x => if s.contains (x, .promote) then s else s ++ [(x, .promote)]) c.sweeps }
  m.setMir fun r => { r with waitIn := [] }

/-- Mirror folios are discarded (R540, R543, R551); answers how many lines they held. -/
def discardMirrors (e : Env) (m : M) : M × Nat :=
  let n := (tagList m).foldl (fun n kv =>
    if kv.2.mirrorFolio then n + ((List.range 32).filter fun k => kv.2.sector k ≠ 0).length else n) 0
  let m := m.setCoh fun c => { c with galley := c.galley.filter fun g => g.kind != .mirrorIn }
  let m := (tagList m).foldl (fun m kv =>
    if kv.2.mirrorFolio then putTag e m kv.1 { m.tagAt kv.1 with sectors := 0, pinned := false } else m) m
  (m.setMir fun r => { r with waitIn := [] }, n)

/-! ### Entries into the states after a loss (R535, R541, R546, R547) -/

/-- Entry into ADOPTED (R535). -/
def adopt (e : Env) (m : M) : M :=
  let m := m.setTwin fun t => { t with
    st := .adopted, rebuildPending := true, frozen := false, drainOwn := false, drainTwin := false }
  let m := sendFailover e m true (!m.pins.pairSide)
  let m := promote e (writeWaiting e m)
  let m := log e m 0x0606 srcCkl (BitVec.ofNat 32 (bit (!m.pins.pairSide))) 0 0
  clearPairDrain e m

/-- Entry into SPLIT (R541). -/
def split (e : Env) (m : M) : M :=
  let m := m.setTwin fun t => { t with st := .split, frozen := true, drainOwn := false, drainTwin := false }
  let m := writeWaiting e m
  let m := if m.modeBit mDrain then m
    else settleModes (writeModes e (m.setTwin fun t => { t with drainByPair := true }) 0x100 0) 0x100
  log e m 0x0607 srcCkl 0 0 0

/-- Entry into DEPOSED (R547): everything held is discarded.  Writes that wait for the twin are never answered; requests that have not
been answered yet are turned away. -/
def depose (e : Env) (m : M) : M :=
  let n := ((tagList m).map fun kv => if kv.2.mirrorFolio then 0 else kv.2.dirtyCount).foldl (· + ·) 0
  let m := (clearMirror m).setTwin fun t => { t with st := .deposed, shedPhase := 0, shedSent := false, frozen := false }
  let m := m.setMir fun r => { r with waitIn := [], promoted := [] }
  -- entries whose write memory has already been asked for run on; all others are discarded
  let m := m.setCoh fun c => { c with
    galley := (c.galley.filter fun g => g.memBusy && !g.memHeld).map fun g => { g with
      kind := .victim, daAgain := false, memAgain := false, mirWait := false, mirFirst := false, clean := false, refill := 16
      nextKind := none, loading := false, rmw := false
      waiters := g.waiters.filter fun w => w.mtag.isNone && w.stage == 1 }
    staging := [], daReads := [], fills := [] }
  let held := m.coh.txns.filter fun t => t.req.op.host && !t.req.silent && t.phase != .granted && t.phase != .rollback
  let m := held.foldl (fun m t => turnAway e m t.req) m
  let m := (m.coh.txns.filter fun t => t.phase == .granted).foldl (fun m t =>
    m.setPort t.req.port { m.port t.req.port with
      ackAfterEvict := t.req.tag :: (m.port t.req.port).ackAfterEvict }) m
  let m := (m.coh.txns.flatMap (·.snoops)).foldl freeSnp m
  let m := m.setCoh fun c => { c with txns := [], dir := [], tags := [] }
  let m := flushLines e m (fun _ => true) 16
  let m := turnAwayAll e m fun _ => true
  let m := log e m 0x060B srcCkl (BitVec.ofNat 32 n) 0 0
  sendFailover e m false m.pins.pairSide

/-- The twin is heard while a beacon of it has been accepted within the last 60 µs (R533). -/
def heard (m : M) : Bool :=
  match m.mir.heard with
  | some t => decide (m.now < t + 3000)
  | none => false

/-- A MIR_FETCH ends without its data (R474, Table 10.12, Table 11.8): the line is lost to its own array as well. -/
def fetchLost (e : Env) (m : M) (l : Line) : M :=
  let data := lostData m
  let m := { m with free := m.free + 2 }
  let waits : Bool := match m.txnOf l with
    | some t => t.phase == .mirFetch
    | none => false
  if waits then
    let (d, _) := overGalley m l data true
    dataReady e (recordLost e m l data) l d true
  else
    let loading : Bool := match m.galleyOf l with
      | some g => g.loading && !(m.coh.daReads.any fun r => r.line == l && (r.use == .load || r.use == .rmw))
      | none => m.coh.staging.any fun g => g.line == l && g.loading
    if loading then loadEntry e (poisonCount e m) l data true
    else if 2 ≤ sectorOf e m l && (m.galleyOf l).isNone then recordLost e m l data
    else m

/-- The CKL is declared lost in PAIRED or RELEASING (R532); what was sent and not answered waits again, and MIR_FETCHes are lost. -/
def declareLost (e : Env) (m : M) : M :=
  if m.twin.st != .paired && m.twin.st != .releasing then m
  else
    let was := m.twin.st
    let cmd := m.mir.relCmd
    let m := setHoldDown e m .ckl true
    let m := log e m 0x0604 srcCkl (BitVec.ofNat 32 was.n) 0 0
    let m := m.setTwin fun t => { t with st := .suspect, shedPhase := 0, shedSent := false, catchup := 0 }
    let out := m.mir.outstanding
    let m := m.setMir fun r => { r with outstanding := [], suspectSince := m.now, relCmd := 0, whole := [], busyRetry := [], quotaWait := [], releases := [] }
    let m := (out.filter fun o => !o.fetch).foldl (fun m o => unsent m o.line o.mtag) m
    let m := (out.filter fun o => o.fetch).foldl (fun m o => fetchLost e m o.line) m
    if was == .releasing then finishCmd e m cmd 0x19 0 else m

/-- What the pair makes of a CKL that has gone DOWN (R516, R532). -/
def cklDown (e : Env) (m : M) : M :=
  let m := match m.twin.st with
    | .hello | .shed => if m.twin.cklWasActive then abandonAttempt e m 1 else m
    | _ => declareLost e m
  if m.twin.st == .hello then m else m.setTwin fun t => { t with hello := none }

/-- One evaluation of SUSPECT (R534). -/
def suspectEval (e : Env) (m : M) : M :=
  let last := if m.mir.beaconKnown then m.mir.lastBeacon else none
  let adopted := match last with
    | some b => b.adopted
    | none => false
  let down := match last with
    | some b => !b.cklUp
    | none => false
  let anyUp := portUp m .hpa || portUp m .hpb
  if adopted then depose e m
  else if down || (heard m && decide (m.mir.suspectSince + 12500 ≤ m.now)) then split e m
  else if heard m then m
  else if anyUp then adopt e m
  else (m.setTwin fun t => { t with st := .isolated }).setMir fun r => { r with isolatedSince := none }

/-! ### Beacons (R398 to R401, R533, R543 to R549) -/

/-- Whether beacon_seq `a` is later than `b` (R401). -/
def seqLater (a b : Tag) : Bool := decide ((a - b).toNat ≠ 0) && decide ((a - b).toNat ≤ 2047)

/-- What an accepted beacon brings about in the present state. -/
def beaconActs (e : Env) (m : M) (b : Beacon) : M :=
  match m.twin.st with
  | .split =>
    if b.drainDone && !m.twin.drainTwin then
      let (m, _) := discardMirrors e m
      log e (m.setTwin fun t => { t with frozen := false, drainTwin := true }) 0x0608 srcCkl 0 0 0
    else m
  | .adopted =>
    if !b.adopted then log e m 0x060D srcCkl 0 0 0
    else if m.twin.senior then log e m 0x060C srcCkl 0 0 0
    else
      let m := depose e m
      sendFailover e m false (!m.pins.pairSide)
  | .isolated =>
    if !portUp m .hpa && !portUp m .hpb then m
    else if b.adopted then depose e m else split e m
  | _ => m

/-- A relayed PEER_BEACON arrives (R401). -/
def beaconIn (e : Env) (m : M) (p : HPort) (b : Beacon) : M :=
  let attempt := m.twin.st == .hello || m.twin.st == .shed
  let twin : Option (BitVec 128) := if attempt then m.twin.hello.map (·.serial) else some m.mir.serial
  if m.twin.st == .unpaired then m
  else
    match twin with
    | none => m
    | some serial =>
      if b.serial != serial then
        let quiet := linkFenced e m p.lnk
        let m := violate e m p.lnk 0x36 none b.seq 0 false false
        if quiet then m else log e m 0x0102 p.lnk.n (BitVec.ofNat 32 p.n) 0 (b.serial.setWidth 64)
      else
        let old := m.mir.lastBeacon
        let stale := heard m && m.mir.beaconKnown && (match old with
          | some x => !seqLater b.seq x.seq
          | none => false)
        if stale then m
        else
          let m := m.setMir fun r => { r with lastBeacon := some b, beaconKnown := true, heard := some m.now }
          beaconActs e (m.setTwin fun t => { t with beaconLost := false }) b

/-- The beacon the device sends (R508). -/
def myBeacon (e : Env) (m : M) : Beacon :=
  ⟨m.mir.beaconSeq, BitVec.ofNat 4 m.twin.st.n, m.twin.st == .split && m.twin.drainOwn, m.twin.st == .adopted,
    (m.link .ckl).st == .active, m.pins.pairSide, e.fuse.serial⟩

/-! ### The holder (R524 to R531) -/

/-- A MIR_WRITE at the holder. -/
def holdMirror (e : Env) (m : M) (x : MirIn) : M :=
  let l := x.line
  let mirrors := ((List.range 16).filter fun w =>
    (m.tagAt (tagKey e.fuse.variant l w)).mirrorFolio && !tagEmpty e m (tagKey e.fuse.variant l w)).length
  let nak (m : M) (reason : Nat) : M := sendCkl e m (.mirNak x.mtag reason)
  if dacDown e m l then nak m 3
  else
    let m := tagCheck e m l
    let found : M × Option Nat := match findTag e m l true with
      | some w => (m, some w)
      | none =>
        match chooseWay e m l true with
        | (m, none) => (m, none)
        | (m, some w) =>
          let m := evictFolio e m (sliceOf l) (setOf e.fuse.variant l) w
          let t : TagEntry := ⟨0, tagOf l, pa12 l, 7, true, false, false, false, false, 0, x.mem⟩
          (putTag e m (tagKey e.fuse.variant l w) t, some w)
    match found with
    | (m, none) => nak m (if 4 ≤ mirrors then 0 else 1)
    | (m, some w) =>
      let k := tagKey e.fuse.variant l w
      let was := (m.tagAt k).sector (lineIndex l)
      if !x.full && was = 0 then nak m 2
      else
        match galleyPut e m l ⟨.mirrorIn, x.data, if x.full then fullMask else x.mask, x.poison, x.mem, true, false, [], false⟩ with
        | none => m.setMir fun r => { r with waitIn := r.waitIn ++ [x] }
        | some m =>
          let m := putTag e m k { (m.tagAt k).setSector (lineIndex l) 2 with
            pinned := true, poisonAny := (m.tagAt k).poisonAny || x.poison }
          let m := m.updG l fun g => { g with acks := g.acks ++ [(x.mtag, 0)] }
          let partly := match m.galleyOf l with
            | some g => g.known != fullMask && !g.loading
            | none => false
          let m := if partly then queueRead e (m.updG l fun g => { g with loading := true }) l .load w 3 else m
          finishG e (count e m (sliceOf l) 0x15 1 none) l

/-- MIR_WRITEs that wait for a galley entry try again (R285). -/
def pumpHolder (e : Env) (m : M) : M :=
  let xs := m.mir.waitIn
  xs.foldl (fun m x => if galleyRoom m (sliceOf x.line) .mirrorIn then holdMirror e m x
      else m.setMir fun r => { r with waitIn := r.waitIn ++ [x] }) (m.setMir fun r => { r with waitIn := [] })

/-- A MIR_FETCH at the holder (R531). -/
def fetchMirror (e : Env) (m : M) (t : Tag) (l : Line) : M :=
  match m.galleyOf l with
  | some g =>
    if g.kind == .mirrorIn && g.known == fullMask then sendCkl e m (.mirData t g.poison g.data)
    else sendCkl e m (.mirLost t l)
  | none =>
    match findTag e m l true with
    | some w =>
      if (m.tagAt (tagKey e.fuse.variant l w)).sector (lineIndex l) = 3 then queueRead e m l (.fetch t) w 3
      else sendCkl e m (.mirLost t l)
    | none => sendCkl e m (.mirLost t l)

/-! ### A failed channel (R494, Tables 10.12 and 11.8) -/

/-- The sweep of the tag banks for a channel that has just failed. -/
def sweepChannel (e : Env) (m : M) (d : Nat) : M :=
  let m := sweepLookups e m
  let m := (tagList m).foldl (fun m kv =>
    (List.range 32).foldl (fun m k =>
      let l := keyLine kv k
      let t := m.tagAt kv.1
      let s := t.sector k
      if s = 0 || dacOf e.fuse.variant l ≠ d then m
      else if t.mirrorFolio then
        let m := putTag e m kv.1 (t.setSector k 0)
        if s = 3 then sendCkl e m (.mirLost 0 l) else m
      else if s = 1 then putTag e m kv.1 (t.setSector k 0)
      else
        match m.galleyOf l with
        | some _ => writeback e m l (kv.1 % 16) s t.memPort true []
        | none =>
          if s = 3 && canFetch m then fetchToMemory e m l t.memPort true
          else
            let m := putTag e m kv.1 { t.setSector k 0 with poisonAny := true }
            let m := poisonLost e m l t.memPort
            mirRelease e m l) m) m
  m.setCoh fun c => { c with sweeps := (List.range 16).foldl (fun s x =>
    if s.contains (x, .channel) then s else s ++ [(x, .channel)]) c.sweeps }

/-- Every channel that has failed and has not been swept for. -/
def sweepFailed (e : Env) (m : M) : M :=
  (List.range 8).foldl (fun m d =>
    let x := m.dac d
    if x.st == .failed && !x.swept then sweepChannel e (m.setDac d { x with swept := true }) d else m) m

end Sys2Proof.Machine
end

