-- ==== Sys2Proof/Machine/Link.lean ====
section
/-!
DEFINITION. The link layer (chapter 7): flits, sequence numbers and replay, credits, the link states, retraining, link-downs and what
they bring about; and what the block does by itself after a command.
-/

namespace Sys2Proof.Machine

open Sys2Proof

/-! ### Flits (Tables 7.4 to 7.9) -/

/-- A flit is valid when its CRC checks and no codeword of it is uncorrectable (R326). -/
def flitValid (f : BitVec 576) (unc : Bool) : Bool := !unc && crc32 (f.setWidth 544) 68 == f.extractLsb' 544 32
def flitSeq (f : BitVec 576) : Tag := f.extractLsb' 512 12
def flitAck (f : BitVec 576) : Tag := f.extractLsb' 524 12
def flitType (f : BitVec 576) : Nat := (f.extractLsb' 536 3).toNat
def flitClass (f : BitVec 576) : Nat := (f.extractLsb' 539 2).toNat
/-- The credits returned by a PAYLOAD flit (Table 7.5). -/
def flitCredits (f : BitVec 576) : Nat :=
  let c := (f.extractLsb' 541 3).toNat
  if c = 0 then 0 else 2 ^ (c - 1)
/-- The four 12-bit values of the idle credit block and of the INIT flit (Tables 7.8 and 7.9). -/
def flitTotals (f : BitVec 576) : List Nat := (List.range 4).map fun c => (f.extractLsb' (16 * c) 12).toNat
def flitRole (f : BitVec 576) : Nat := (f.extractLsb' 60 2).toNat
def flitResync (f : BitVec 576) : Bool := f.getLsbD 62
def flitSlot (f : BitVec 576) (k : Nat) : BitVec 128 := f.extractLsb' (128 * k) 128

/-- The least that the partner may advertise; the most is 4,095 in every class. -/
def leastAdv : Lnk → List Nat
  | .hpa | .hpb => [0, 8, 8, 8]
  | .mpa | .mpb => [8, 0, 0, 8]
  | .ckl => [16, 128, 256, 1152]
/-- The role expected of the partner (R346). -/
def partnerRole : Lnk → Nat
  | .hpa | .hpb => 0
  | .mpa | .mpb => 2
  | .ckl => 3

/-! ### Messages in the slot stream (Tables 8.1, 11.1 and 11.2, R366 to R369) -/

/-- Class and data slots of a message that may arrive on the link, by its opcode and header; none for a BAD_OPCODE. -/
def rxCost (l : Lnk) (op : Nat) (h : BitVec 128) : Option (Nat × Nat) :=
  let carried := 1 + popCount (h.extractLsb' 77 8)
  match l.host, l.mem with
  | some _, _ =>
    if op = 0x08 ∨ op = 0x0D then some (0, 8)
    else if op = 0x09 ∨ op = 0x0A ∨ op = 0x0B then some (0, carried)
    else if op = 0x10 then some (0, if h.extractLsb' 84 4 = 2 then 2 else 1)
    else if (1 ≤ op ∧ op ≤ 5) ∨ op = 0x0C ∨ op = 0x14 ∨ op = 0x15 ∨ op = 0x16 ∨ op = 0x18 ∨ op = 0x19 then some (0, 0)
    else if op = 0x28 ∨ op = 0x29 ∨ op = 0x2C then some (1, 0)
    else if op = 0x2A ∨ op = 0x2B then some (1, 8)
    else if op = 0x38 then some (2, 0)
    else if op = 0x3D then some (2, 1)
    else none
  | none, some _ =>
    if op = 0x34 then some (2, (h.extractLsb' 21 4).toNat)
    else if op = 0x35 ∨ op = 0x37 then some (2, 0)
    else none
  | none, none =>
    if op = 0x40 then some (0, 1)
    else if 0x41 ≤ op ∧ op ≤ 0x45 then some (0, 0)
    else if op = 0x48 then some (1, if h.getLsbD 22 then 8 else carried)
    else if op = 0x49 ∨ op = 0x4A then some (1, 0)
    else if op = 0x50 ∨ op = 0x51 ∨ op = 0x53 then some (2, 0)
    else if op = 0x52 then some (2, 8)
    else none
/-- Whether an opcode in unit 0 makes its slot a long header slot (R367, Tables 8.1 and 11.2). -/
def longOpcode (l : Lnk) (op : Nat) : Bool :=
  match l with
  | .ckl => (0x40 ≤ op && op ≤ 0x45) || (0x48 ≤ op && op ≤ 0x4A) || op = 0x53
  | _ => (1 ≤ op && op ≤ 5) || (8 ≤ op && op ≤ 0x0D) || op = 0x10 || (0x14 ≤ op && op ≤ 0x16) || op = 0x18 || op = 0x19
      || (0x20 ≤ op && op ≤ 0x22) || op = 0x3C || op = 0x3D
/-- Class and data slots of a message that Table 8.1 lists for the other direction only: it spends its credits and is discarded. -/
def wrongWay (l : Lnk) (op : Nat) (h : BitVec 128) : Option (Nat × Nat) :=
  match l with
  | .ckl => none
  | _ =>
    if 0x20 ≤ op ∧ op ≤ 0x22 then some (1, 0)
    else if op = 0x34 then some (2, (h.extractLsb' 21 4).toNat)
    else if (0x30 ≤ op ∧ op ≤ 0x32) ∨ op = 0x35 ∨ op = 0x36 ∨ op = 0x37 ∨ op = 0x38 then some (2, 0)
    else if op = 0x3C ∨ op = 0x3D then some (2, 1)
    else none

/-! ### Owner losses of quoins (R846) -/

/-- Releases the quoins whose owner ID `p` names as owner losses. -/
def loseQuoins (m : M) (p : BitVec 9 → Bool) : M :=
  { m with quo := Tab.mapVals (fun _ => .free) (fun _ q => if q.owner != 0 && p q.owner then ⟨0, true, 0⟩ else q) m.quo }
/-- The path field of an owner ID (Table 18.7). -/
def ownerPath (o : BitVec 9) : Nat := o.toNat / 64
/-- A port event as the whole device sees it (R214, R846). -/
def hostEvent (e : Env) (m : M) (p : HPort) : M := portEvent e (loseQuoins m fun o => ownerPath o = 1 + p.n) p

/-! ### Link commands (R645, R646) -/

/-- Groups set in a mask. -/
def groupCount (g : BitVec 3) : Nat := popCount g
/-- What a link command ends with: the width and the state of the link (Table 13.6). -/
def linkResult (x : LinkSt) : BitVec 448 :=
  resAt 8 (if x.st == .active then groupCount x.groups else 0)
    ||| resAt 9 (match x.st with
      | .down => 0 | .detect => 1 | .trainEq => 2 | .align => 3 | .initCredit => 4 | .active => 5 | .retrain => 6)
/-- The final status of the commands that wait for the link and that `p` names. -/
def finishLink (e : Env) (m : M) (l : Lnk) (status : Nat) (p : Nat → Bool) : M :=
  let x := m.link l
  (x.cmds.filter p).foldl (fun m id => finishCmd e m id status (linkResult x))
    (m.setLink l { x with cmds := x.cmds.filter fun id => !p id })

/-! ### Link-down and link-up (R351, R402, R414, R419, Table 7.13) -/

def LState.up (s : LState) : Bool := s == .active || s == .retrain
def LState.n : LState → Nat
  | .down => 0 | .detect => 1 | .trainEq => 2 | .align => 3 | .initCredit => 4 | .active => 5 | .retrain => 6

/-- What the rest of the device makes of a link that has left ACTIVE or RETRAIN for DOWN. -/
def linkLost (e : Env) (m : M) (l : Lnk) : M :=
  match l with
  | .hpa => hostEvent e m .hpa
  | .hpb => hostEvent e m .hpb
  | .mpa => memDown e m .mpa
  | .mpb => memDown e m .mpb
  | .ckl => cklDown e m

/-- The link enters DOWN with a reason of Table 7.17. -/
def linkDown (e : Env) (m : M) (l : Lnk) (reason : Nat) : M :=
  let x := m.link l
  if x.st == .down then m
  else
    let m := if x.st.up then bump e m (rLinkCnt l 5) 1 else m
    let m := m.setLink l { LinkSt.reset with
      since := m.now, inactive := if x.st == .active then m.now else x.inactive
      rxFailed := x.rxFailed, txFailed := x.txFailed, retrainFails := x.retrainFails, downReason := reason
      bringupHold := x.bringupHold, ran := x.ran, taps := x.taps, rxFlits := x.rxFlits, winBad := x.winBad, violTicks := x.violTicks
      fullHold := x.fullHold, cmds := x.cmds }
    let m := if x.st.up then linkLost e m l else m
    -- a retrain or a change of the width ends here; a full retrain goes on
    finishLink e m l 0x18 fun id => (m.acceptedCmd id).any fun a => a.base == 0

/-- A port reset (R902, R904): DOWN with reason HOLD, a port event on a host port, and the window empty. -/
def portReset (e : Env) (m : M) (l : Lnk) : M :=
  let was := (m.link l).st
  let m := linkDown e m l 0xC
  let m := match l.host with
    | some p => if was.up then m else hostEvent e m p
    | none => m
  m.setLink l { m.link l with downReason := 0xC, retrainFails := 0, winBad := [], rxFlits := 0 }

/-- The link leaves INIT_CREDIT for ACTIVE (R329, R355, R358, R402, R419). -/
def linkUp (e : Env) (m : M) (l : Lnk) (adv : List Nat) : M :=
  let x := m.link l
  let m := m.setLink l { LinkSt.reset with
    st := .active, since := m.now, inactive := x.inactive, groups := x.groups, trained := x.trained, common := x.common
    rxFailed := x.rxFailed, txFailed := x.txFailed, downReason := x.downReason, bringupHold := x.bringupHold
    partnerMax := x.partnerMax, laneMap := x.laneMap, taps := x.taps, atLimit := x.atLimit, ran := x.ran
    ackTick := m.now, lastValid := m.now, avail := adv, adv := adv, rxFree := advertised l
    violTicks := x.violTicks, fullHold := x.fullHold, cmds := x.cmds }
  let m := match l with
    | .hpa => resendFailover e m .hpa
    | .hpb => resendFailover e m .hpb
    | .mpa => memUpAgain e m .mpa
    | .mpb => memUpAgain e m .mpb
    | .ckl => m.setTwin fun t => if t.st == .hello || t.st == .shed then { t with cklWasActive := true } else t
  let m := if m.twin.st == .isolated && l.host.isSome && m.mir.isolatedSince.isNone then
      m.setMir fun r => { r with isolatedSince := some m.now }
    else m
  finishLink e m l 0 fun _ => true

/-- Every link whose hold_down is set is DOWN (Table 7.13). -/
def enforceHold (e : Env) (m : M) : M :=
  [Lnk.hpa, .hpb, .mpa, .mpb, .ckl].foldl (fun m l =>
    if holdDown e m l && (m.link l).st != .down then linkDown e m l 0xC else m) m

/-- A memory port or the CKL is fenced (R437). -/
def fenceLink (e : Env) (m : M) (l : Lnk) : M :=
  if linkFenced e m l then m
  else
    let m := wr e m (rViolStat l) (rd e m (rViolStat l) ||| 0x4000)
    let m := linkDown e (setHoldDown e m l true) l 0xC
    fenceEvent e m 0x0011 l.n

/-- Fences a link, whatever it is (R433, R434). -/
def fenceAny (e : Env) (m : M) (l : Lnk) : M :=
  match l.host with
  | some p => fencePort e m p
  | none => fenceLink e m l

/-! ### Retraining (R352 to R356) -/

/-- The threshold of R357. -/
def threshold (e : Env) (m : M) (l : Lnk) : Nat := fld (rd e m (rLinkCfg l)) 0 12
def widthMax (e : Env) (m : M) (l : Lnk) : Nat := fld (rd e m (rLinkCfg l)) 12 2

/-- The groups that R350 chooses: the common ones, the highest dropped down to the smaller of the two maximum widths. -/
def chooseGroups (e : Env) (m : M) (l : Lnk) (common : BitVec 3) : BitVec 3 :=
  (List.range 3).foldl (fun g k =>
    if common.getLsbD k && decide (groupCount g < min (widthMax e m l) (m.link l).partnerMax) then g ||| ((1 : BitVec 3) <<< k) else g) 0
/-- Whether every lane of a group is good. -/
def groupGood (failed : BitVec 24) (g : Nat) : Bool := (failed >>> (8 * g)).setWidth 8 == (0 : BitVec 8)
/-- The groups of a mask with no failed lane (R306, R308). -/
def goodGroups (failed : BitVec 24) (mask : BitVec 3) : BitVec 3 :=
  (List.range 3).foldl (fun g k => if mask.getLsbD k && groupGood failed k then g ||| ((1 : BitVec 3) <<< k) else g) 0

/-- A retrain attempt starts, on the common groups whose lanes are all good (R308, R350). -/
def newAttempt (e : Env) (m : M) (l : Lnk) : M :=
  let m := bump e m (rLinkCnt l 4) 1
  let x := m.link l
  control (m.setLink l { x with
    st := .retrain, since := m.now, aligned := false, groups := goodGroups (x.rxFailed ||| x.txFailed) x.common }) l .retrainReq
/-- The port enters RETRAIN; while it is there already, a further cause does nothing (R352, R356). -/
def enterRetrain (e : Env) (m : M) (l : Lnk) : M :=
  let x := m.link l
  if x.st != .active then m
  else newAttempt e (m.setLink l { x with inactive := m.now, retrained := false }) l
/-- A retrain attempt fails (R354, R355). -/
def failAttempt (e : Env) (m : M) (l : Lnk) : M :=
  let x := m.link l
  if x.st != .retrain then m
  else if 7 ≤ x.retrainFails then linkDown e (m.setLink l { x with retrainFails := 8 }) l 2
  else newAttempt e (m.setLink l { x with retrainFails := x.retrainFails + 1 }) l

/-! ### Acknowledgement and replay (R330 to R340) -/

/-- The index of the flit that an ack names. -/
def ackIndex (fs : List TxFlit) (a : Tag) : Option Nat := fs.findIdx? fun f => f.seq == a
/-- Takes the ack of a valid flit (R334, R336). -/
def takeAck (e : Env) (m : M) (l : Lnk) (a : Tag) : M :=
  let x := m.link l
  match ackIndex x.replay a with
  | some i => m.setLink l { x with replay := x.replay.drop (i + 1), lastAck := a, replayStalls := 0, ackTick := m.now }
  | none => if a == x.lastAck then m else violate e m l 0x02 none 0 0 true true

/-- The event that counts flits resent (Tables 17.4 and 17.5). -/
def replayEvent (l : Lnk) : Nat := match l with | .ckl => 3 | _ => 4
/-- Resends every buffered flit, unchanged but for its ack (R337, R340). -/
def resendAll (e : Env) (m : M) (l : Lnk) : M :=
  let x := m.link l
  if x.replay.isEmpty then m
  else x.replay.foldl (emit l) (count e m l.island (replayEvent l) x.replay.length none)
/-- A replay starts from the oldest buffered flit.  The fourth in a row since an ack freed a flit enters RETRAIN (R339, R341; log entry
73). -/
def startReplay (e : Env) (m : M) (l : Lnk) : M :=
  let x := m.link l
  if x.replay.isEmpty then m
  else
    let m := bump e m (rLinkCnt l 3) 1
    if 3 ≤ x.replayStalls then enterRetrain e m l
    else resendAll e (m.setLink l { m.link l with replayStalls := x.replayStalls + 1 }) l
/-- A valid NAK starts a replay, unless one of the timer started in this tick, which has resent the same flits (R338). -/
def nakReplay (e : Env) (m : M) (l : Lnk) : M :=
  let x := m.link l
  if x.timerReplay == some m.now then m else startReplay e (m.setLink l { x with nakReplay := some m.now }) l
/-- Sends a NAK, which is then pending (R331). -/
def sendNak (m : M) (l : Lnk) : M :=
  let x := m.link l
  control (m.setLink l { x with nakPending := true, nakTick := m.now }) l (.nak (x.rxExpected - 1))
/-- Sends a NAK unless one is pending. -/
def askNak (m : M) (l : Lnk) : M := if (m.link l).nakPending then m else sendNak m l

/-! ### Credits (R343 to R347) -/

/-- Credits of one class are returned (R345, CREDIT_EXCESS of Table 9.1). -/
def addCredit (e : Env) (m : M) (l : Lnk) (c n : Nat) : M :=
  let x := m.link l
  let now := x.avail.getD c 0 + n
  let top := x.adv.getD c 0
  let m := m.setLink l { x with avail := x.avail.set c (min now top) }
  if top < now then violate e m l 0x04 none 0 0 true true else m
/-- The running totals of a flit (R345). -/
def takeTotals (e : Env) (m : M) (l : Lnk) (ts : List Nat) : M :=
  let old := (m.link l).peerTotals
  let m := m.setLink l { m.link l with peerTotals := ts }
  (List.range 4).foldl (fun m c =>
    let n := (ts.getD c 0 + 4096 - old.getD c 0) % 4096
    if n = 0 then m else addCredit e m l c n) m

/-- The receive buffers that a message of a class with some data slots takes (R365). -/
def buffersOf (cost : Nat × Nat) : List Nat := (List.range 4).map fun c => bit (c == cost.1) + (if c = 3 then cost.2 else 0)
/-- A message for which no credit remains is discarded, and the link retrains (R347). -/
def overrun (e : Env) (m : M) (l : Lnk) : M :=
  if (m.link l).st == .active then enterRetrain e (violate e m l 0x03 none 0 0 true true) l else m
/-- A message in the slot stream takes its buffers, or overruns its credits (R347). -/
def takeBuffers (e : Env) (m : M) (l : Lnk) (cost : Nat × Nat) : M :=
  let x := m.link l
  let need := buffersOf cost
  if listLe need x.rxFree then m.setLink l { x with rxFree := listSub x.rxFree need, rxPend := listAdd x.rxPend need }
  else overrun e m l
/-- A message that is discarded gives its buffers back at once (R344). -/
def discardMsg (m : M) (l : Lnk) (cost : Nat × Nat) : M :=
  let x := m.link l
  m.setLink l { x with rxTotals := (listAdd x.rxTotals (buffersOf cost)).map (· % 4096) }
/-- One header of the slot stream; answers the data slots that follow it. -/
def takeHeader (e : Env) (m : M) (l : Lnk) (h : BitVec 128) : M × Nat :=
  let op := (h.setWidth 8).toNat
  if op = 0 then (m, 0)
  else
    match rxCost l op h with
    | some c => (takeBuffers e m l c, c.2)
    | none =>
      let m := violate e m l 0x10 none (h.extractLsb' 8 12) op true true
      match wrongWay l op h with
      | some c => (discardMsg m l c, c.2)
      | none => (m, 0)
/-- One slot of the stream (R366 to R368). -/
def takeSlot (e : Env) (m : M) (l : Lnk) (s : BitVec 128) : M :=
  let n := (m.link l).rxDataSlots
  let put (m : M) (k : Nat) : M := m.setLink l { m.link l with rxDataSlots := k }
  if n ≠ 0 then put m (n - 1)
  else if longOpcode l (s.setWidth 8).toNat then
    let (m, k) := takeHeader e m l s
    put m k
  else
    let (m, k) := (List.range 4).foldl (fun (acc : M × Nat) u =>
      let (m, k) := takeHeader e acc.1 l ((s.extractLsb' (32 * u) 32).setWidth 128)
      (m, acc.2 + k)) (m, 0)
    put m k

/-- A message of the link arrives: `f` handles it.  Its buffers are those that its flit took, or, where no command has presented its flit,
it takes them now or overruns its credits (R347). -/
def delivered (e : Env) (m : M) (l : Lnk) (cls slots : Nat) (f : M → M) : M :=
  let x := m.link l
  let need := buffersOf (cls, slots)
  if x.st != .active then f m
  else if listLe need x.rxPend then f (m.setLink l { x with rxPend := listSub x.rxPend need })
  else if listLe need x.rxFree then f (m.setLink l { x with rxFree := listSub x.rxFree need })
  else overrun e m l

/-- Data slots of a write that the device still holds (R344, R405). -/
def Req.slots (r : Req) : Nat :=
  match r.op with
  | .wrLine | .evictDirty => 8
  | .wrPart | .wrNt | .cndSt => 1 + popCount (r.opf.setWidth 8 : BitVec 8)
  | .atom => if atomOp r.opf = 2 then 2 else 1
  | _ => 0
/-- The data slots that requests hold. -/
def slotSum (rs : List Req) : Nat := rs.foldl (fun n r => n + r.slots) 0
/-- The receive buffers a link's waiting messages hold besides those of unhandled ones: the data of requests that a port holds, that wait
for their slice, or for a galley entry (R288), and on the CKL the MIR_WRITEs that wait for one (R285). -/
def heldSlots (m : M) (l : Lnk) : List Nat :=
  match l.host with
  | none =>
    if l == .ckl then
      m.mir.waitIn.foldl (fun n w => listAdd n (buffersOf (1, if w.full then 8 else 1 + (slotsOf w.mask).length))) [0, 0, 0, 0]
    else [0, 0, 0, 0]
  | some p =>
    let q := m.port p
    [0, 0, 0, slotSum q.hold + slotSum q.ntWait + slotSum (m.coh.waiting.filter fun r => r.port == p)
      + slotSum ((m.coh.txns.filter fun t => t.galleyWait && t.req.port == p).map (·.req))
      + q.epochs.foldl (fun n kv => n + slotSum kv.2.hold) 0]
/-- Buffers that have become free are returned in the running totals (R344, R345). -/
def returnCredits (m : M) (l : Lnk) : M :=
  let x := m.link l
  if !x.st.up then m
  else
    let free := listSub (listSub (advertised l) x.rxPend) (heldSlots m l)
    m.setLink l { x with
      rxFree := free
      rxTotals := (List.range 4).map fun c => (x.rxTotals.getD c 0 + (free.getD c 0 - x.rxFree.getD c 0)) % 4096 }

/-! ### Flits that arrive (R321, R330, R331, R357, Table 7.7) -/

/-- The flits of the window that were not valid, after one more flit (R357). -/
def windowAfter (x : LinkSt) (bad : Bool) : List Nat :=
  (if bad then x.rxFlits :: x.winBad else x.winBad).filter fun k => decide (x.rxFlits < k + 1048576)
/-- The counters of uncorrectable codewords take what the flit's codewords were: how many, and of which group, is open. -/
def countUnc (e : Env) (m : M) (l : Lnk) (g n : Nat) : M :=
  bump e (bump e m (rLinkCnt l 1) n) (l.base + 0x1A + 3 * g) n
def uncGroup (gs : BitVec 3) (k : Nat) : Nat :=
  if gs.getLsbD (k % 3) then k % 3 else if gs.getLsbD 0 then 0 else if gs.getLsbD 1 then 1 else 2
/-- A flit that is not valid (R326, R331, R357). -/
def badFlit (e : Env) (m : M) (l : Lnk) (unc : Bool) : M :=
  let x := m.link l
  let m := if unc then
      countUnc e { m with free := m.free + 1 } l (uncGroup x.groups (Config.lane m.free).toNat) ((Config.lane m.free).toNat % 5)
    else m
  let m := bump e m (rLinkCnt l 2) 1
  let m := if l == .ckl then m else count e m l.island 5 1 none
  let m := m.setLink l { m.link l with winBad := windowAfter x true, rxFlits := x.rxFlits + 1, payloadRun := 0 }
  if threshold e m l ≤ (m.link l).winBad.length then linkDown e m l 1
  else if x.st == .active then askNak m l
  else m

/-- An accepted PAYLOAD flit (Table 7.7). -/
def acceptFlit (e : Env) (m : M) (l : Lnk) (f : BitVec 576) : M :=
  let x := m.link l
  let m := m.setLink l { x with rxExpected := x.rxExpected + 1, nakPending := false }
  let m := count e m l.island 2 1 none
  let m := if flitCredits f = 0 then m else addCredit e m l (flitClass f) (flitCredits f)
  (List.range 4).foldl (fun m k => takeSlot e m l (flitSlot f k)) m

/-- A valid PAYLOAD flit (R328, Table 7.7). -/
def payloadFlit (e : Env) (m : M) (l : Lnk) (f : BitVec 576) : M :=
  let x := m.link l
  let m := m.setLink l { x with payloadRun := x.payloadRun + 1 }
  let m := if x.payloadRun = 256 then violate e m l 0x05 none 0 0 true true else m
  let early := (x.rxExpected - flitSeq f).toNat
  if early = 0 then acceptFlit e m l f
  else if early ≤ 1024 then m
  else askNak m l

/-- A valid flit that is not PAYLOAD: IDLE, NAK or RETRAIN_REQ (R331, R337, R345, R352). -/
def creditFlit (e : Env) (m : M) (l : Lnk) (f : BitVec 576) : M :=
  let m := takeTotals e m l (flitTotals f)
  let m := if flitSeq f != (m.link l).rxExpected then askNak m l else m
  match flitType f with
  | 2 => if (m.link l).lastAck == flitAck f then nakReplay e m l else m
  | 3 => enterRetrain e m l
  | _ => m

/-- A valid flit on an ACTIVE link (R324, R336). -/
def goodFlit (e : Env) (m : M) (l : Lnk) (f : BitVec 576) : M :=
  let x := m.link l
  let m := m.setLink l { x with lastValid := m.now, winBad := windowAfter x false, rxFlits := x.rxFlits + 1 }
  let m := takeAck e m l (flitAck f)
  if flitType f = 1 then payloadFlit e m l f
  else
    let m := m.setLink l { m.link l with payloadRun := 0 }
    if flitType f ≤ 3 then creditFlit e m l f
    else if flitType f = 4 then m
    else violate e m l 0x01 none 0 0 true true

/-- An INIT flit in INIT_CREDIT: the role, the advertisement, and ACTIVE or DOWN (R342, R346). -/
def initFlit (e : Env) (m : M) (l : Lnk) (f : BitVec 576) : M :=
  if flitResync f then m
  else if flitRole f ≠ partnerRole l then linkDown e (violate e m l 0x06 none 0 0 false true) l 0xB
  else if !listLe (leastAdv l) (flitTotals f) then linkDown e (violate e m l 0x06 none 0 0 false true) l 0xA
  else linkUp e m l (flitTotals f)

/-- The partner's INIT flit with resync after ALIGN (steps 4 to 6 of R353): the credits are set, and the replay from its ack + 1 follows. -/
def resyncFlit (e : Env) (m : M) (l : Lnk) (f : BitVec 576) : M :=
  if !flitResync f || !(m.link l).aligned then m
  else
    let m := takeAck e m l (flitAck f)
    let x := m.link l
    let owed := x.replay.foldl (fun n t => listAdd n t.cost) [0, 0, 0, 0]
    let m := m.setLink l { x with
      st := .active, since := m.now, lastValid := m.now, retrained := true, avail := listSub (flitTotals f) owed
      replayStalls := 0, ackTick := m.now, payloadRun := 0 }
    finishLink e (resendAll e m l) l 0 fun _ => true

/-- A flit arrives on a link, in whatever state the link is. -/
def flitRx (e : Env) (m : M) (l : Lnk) (f : BitVec 576) (unc : Bool) : M :=
  match (m.link l).st with
  | .active => if flitValid f unc then goodFlit e m l f else badFlit e m l unc
  | .initCredit =>
    if !flitValid f unc then badFlit e m l unc
    else
      let x := m.link l
      let m := m.setLink l { x with winBad := windowAfter x false, rxFlits := x.rxFlits + 1 }
      if flitType f = 4 then initFlit e m l f else m
  | .retrain => if flitValid f unc && flitType f = 4 then resyncFlit e m l f else m
  | _ => m

/-! ### What the block does by itself after a command -/

/-- Fences the links that the command's violations have made due (R433). -/
def applyFences (e : Env) (m : M) : M :=
  let ls := m.fences
  ls.foldl (fenceAny e) { m with fences := [] }

/-- RAT_SYNC ends OK once every request that had looked up a span before it has sent its final response (R163). -/
def pumpSyncs (e : Env) (m : M) : M :=
  if m.jpc.fw != .running then m
  else
    (m.coh.syncs.filter fun s => s.2.isEmpty).foldl (fun m s => finishCmd e m s.1 0 0)
      (m.setCoh fun c => { c with syncs := c.syncs.filter fun s => !s.2.isEmpty })

/-- The pre-reset drain (R897): every Dirty line that the device serves as primary and that has no writeback under way takes one. -/
def pumpDrain (e : Env) (m : M) : M :=
  if m.boot.warm.any (·.draining) then
    (dirtyPrimary m).foldl (fun m l => if writingBack m l then m else cleanLine e m l []) m
  else m

/-- After a command, everything goes on that needs no further event: requests start, mirrors and holders send, a shed advances, fences
due are applied, queued messages leave as far as credits go, and freed buffers are returned. -/
def fin (e : Env) (m : M) : M :=
  let m := applyFences e (pumpOnce e m)
  let m := sweepFailed e (enforceHold e m)
  let m := pumpMirror e (pumpHolder e m)
  let m := sayHello e (pumpShed e m)
  let m := pumpSyncs e (showDegraded e m)
  let m := settle e (pumpDrain e m)
  let m := applyFences e m
  let m := enforceHold e m
  let m := [Lnk.hpa, .hpb, .mpa, .mpb, .ckl].foldl (fun m l => flushTx e l 4096 m) m
  let m := [MPort.mpa, .mpb].foldl (memResumed e) m
  [Lnk.hpa, .hpb, .mpa, .mpb, .ckl].foldl returnCredits m

/-- The form of a command on a running device: its effect, and what follows from it by itself. -/
def act (s : State) (f : Env → M → M) : Host.Outcome State Fault Refusal :=
  run s fun e m => whenAlive m fun m => fin e (f e m)

end Sys2Proof.Machine
end

