-- ==== Sys2Proof/Machine/Flags.lean ====
section
/-!
DEFINITION. The register space (chapters 18 and 19): windows, blocks and partial decoding, what every register reads as, which bits a
read clears, and which accesses are privileged.
-/

namespace Sys2Proof.Machine

open Sys2Proof

/-! ### Blocks and decoding (R852 to R856, R832, R833) -/

/-- The decode mask of a block window; none where the window holds no register (Table 19.1). -/
def blockMask (b : Nat) : Option Nat :=
  if b = 0 then some 0x1FF
  else if b = 1 ∨ b = 3 ∨ b = 4 ∨ b = 5 then some 0x3F
  else if b = 2 ∨ b = 0xA then some 0xFF
  else if b = 6 ∨ b = 8 then some 0x7F
  else if b = 7 ∨ b = 9 then some 0xF
  else if 0x10 ≤ b ∧ b < 0x14 then some 0xFF
  else if 0x20 ≤ b ∧ b < 0x28 then some 0x7F
  else if 0x40 ≤ b ∧ b < 0x50 then some 0xFF
  else none

/-- Whether a slot of a block is implemented (Table 19.1). -/
def slotIn (b k : Nat) : Bool :=
  if b = 0 then k ≤ 0x14 || (0x100 ≤ k && k ≤ 0x1FF)
  else if b = 1 then k ≤ 0x2F
  else if b = 2 then k ≤ 0x27 || (0x40 ≤ k && k ≤ 0x67) || (0x80 ≤ k && k ≤ 0xA7)
  else if b = 3 then k ≤ 0x3F
  else if b = 4 then k ≤ 0x27
  else if b = 5 then k ≤ 0x3B
  else if b = 6 then k ≤ 0x6D
  else if b = 7 then k ≤ 4 || (8 ≤ k && k ≤ 0xF)
  else if b = 8 then k ≤ 0x5F
  else if b = 9 then k ≤ 0xD
  else if b = 0xA then k ≤ 0xE || (0x10 ≤ k && k ≤ 0x96)
  else if b < 0x14 then k ≤ 0xE || (0x10 ≤ k && k ≤ 0x39) || (0x40 ≤ k && k ≤ 0xFF)
  else if b < 0x28 then k ≤ 0x4F
  else k ≤ 0xDB

/-- The register that a word of the direct window reaches, by the word index of its own address (R832). -/
def decodeWord (w : Nat) : Option Nat :=
  let b := w / 0x1000
  match blockMask b with
  | none => none
  | some k =>
    let slot := Nat.land (w % 0x400) k
    if slotIn b slot then some (b * 0x1000 + slot) else none

/-- What an address of the register space names (Table 18.1). -/
inductive Target where
  | direct (w : Nat) (own : Bool)
  | mirror (w : Nat) (own : Bool)
  | alias_ (w b : Nat) (own : Bool)
  | ring (r k : Nat)
  | holding (s k : Nat)
  | nothing
  deriving DecidableEq, Repr

/-- The target of an address; `own` says that the address is the register's own and not an alias of it (R811, R832). -/
def target (addr : Word) : Target :=
  let a := addr.toNat / 4 * 4
  if a < 0x800000 then
    match decodeWord (a / 4) with
    | some w => .direct w (w == a / 4)
    | none => .nothing
  else if a < 0x1000000 then
    match decodeWord ((a - 0x800000) / 4) with
    | some w => .mirror w (w == (a - 0x800000) / 4)
    | none => .nothing
  else if a < 0x11000000 then
    match decodeWord ((a - 0x1000000) / 128) with
    | some w => .alias_ w ((a - 0x1000000) / 4 % 32) (w == (a - 0x1000000) / 128)
    | none => .nothing
  else if 0x80000000 ≤ a ∧ a < 0x80A00000 then .ring ((a - 0x80000000) / 0x40000) ((a - 0x80000000) % 0x40000 / 4)
  else if 0x81000000 ≤ a ∧ a < 0x81002000 then .holding ((a - 0x81000000) / 0x1000) ((a - 0x81000000) % 0x1000 / 4)
  else .nothing

/-- The island that owns a register (Table 19.1, R858). -/
def regIsland (w : Nat) : Nat :=
  let b := w / 0x1000
  let k := w % 0x1000
  if b = 0 then (if k ≤ 9 ∨ k = 0x13 ∨ k = 0x14 then 31 else 16)
  else if b = 1 ∨ b = 4 ∨ b = 5 ∨ b = 7 then 31
  else if b = 2 ∨ b = 9 then 30
  else if b = 3 ∨ b = 6 ∨ b = 8 then 16
  else if b = 0xA then 29
  else if b < 0x14 then 17 + (b - 0x10)
  else if b < 0x28 then 21 + (b - 0x20)
  else b - 0x40

/-- The link of a link block. -/
def blockLink (b : Nat) : Option Lnk :=
  if b = 0x10 then some .hpa else if b = 0x11 then some .hpb else if b = 0x12 then some .mpa
  else if b = 0x13 then some .mpb else if b = 0xA then some .ckl else none

/-- A register of a unit that the variant does not have, or of a lane or group that the link does not have (R11, R872, Tables 19.3
to 19.6). -/
def regAbsent (v : Variant) (w : Nat) : Bool :=
  let b := w / 0x1000
  let k := w % 0x1000
  if b = 0xA then !v.ckl
  else if 0x20 ≤ b ∧ b < 0x28 then decide (v.dacs ≤ b - 0x20)
  else if b = 6 then !v.sample && (decide (4 ≤ k) && decide (k ≤ 9) || decide (0xE ≤ k))
  else if b = 0x12 ∨ b = 0x13 then k = 0xE || (0x1E ≤ k && k ≤ 0x20) || 0xC0 ≤ k
  else if 0x40 ≤ b then !v.far && (0x50 ≤ k && k ≤ 0x5F)
  else false

/-! ### Counter groups (R859) -/

/-- The base word of an island's block and its counter group. -/
def groupOf (w : Nat) : Option (Nat × Nat × Nat × Nat) :=
  let i := regIsland w
  match ctrGroup i with
  | none => none
  | some (b, p, k) =>
    if w / 0x1000 ≠ b / 0x1000 ∨ w < b + p ∨ b + p + 3 * k < w then none else some (i, w - b - p, k, b + p)

/-- The part of its group that a counter register is: 0 CTL, 1 LO, 2 HI, 3 OVF, with the island and the counter. -/
def ctrReg (w : Nat) : Option (Nat × Nat × Nat) :=
  match groupOf w with
  | none => none
  | some (i, d, k, _) =>
    if d < k then some (0, i, d) else if d < 2 * k then some (1, i, d - k)
    else if d < 3 * k then some (2, i, d - 2 * k) else some (3, i, 0)

/-- Event codes listed for a block (Tables 17.3 to 17.5). -/
def eventListed (i code : Nat) : Bool :=
  if i < 16 then code ≤ 0x17
  else if i = 16 then code ≤ 6
  else if i ≤ 20 then code ≤ 0x18
  else if i ≤ 28 then code ≤ 0xA
  else if i = 29 then code ≤ 8
  else i = 30 && code ≤ 5

/-! ### What registers read as -/

/-- GLB_FW_STAT (Table 12.13). -/
def FwState.n : FwState → Nat | .rom => 0 | .running => 1 | .restarting => 2 | .halted => 3 | .recovery => 4
def fwStat (m : M) : Word :=
  let j := m.jpc
  BitVec.ofNat 32 (j.fw.n + 8 * bit j.slot + 16 * bit j.trialRun + 32 * bit j.record.rolledBack
    + 64 * bit j.sigChecked + 128 * bit j.record.valid0 + 256 * bit j.record.valid1 + 512 * (j.failCause.toNat % 8)
    + 4096 * j.restartCause.toNat + 65536 * j.restarts.toNat)

/-- xxx_LINK_STAT (Table 7.16). -/
def LinkSt.widthSet (x : LinkSt) : Bool := x.st == .initCredit || x.st == .active || x.st == .retrain
def linkStat (x : LinkSt) : Word :=
  BitVec.ofNat 32 (x.st.n + 8 * (if x.widthSet then x.groups.toNat else 0) + 64 * min x.retrainFails 15
    + 1024 * (x.downReason % 16) + 16384 * bit x.nakPending + 32768 * bit (decide (1024 ≤ x.replay.length)))

/-- CKL_PAIR_STAT (Table 11.12). -/
def pairStat (m : M) : Word :=
  let t := m.twin
  BitVec.ofNat 32 (t.st.n + 16 * bit t.senior + 32 * bit t.rebuildPending + 64 * bit t.frozen + 128 * bit t.drainOwn
    + 256 * bit t.drainTwin + 512 * bit t.drainByPair + 1024 * bit (degraded m) + 2048 * bit (t.catchup != 0)
    + 4096 * bit t.beaconLost + 8192 * t.lastRefusal.toNat)

def DacState.n : DacState → Nat | .reset => 1 | .training => 2 | .active => 3 | .failed => 4
/-- DACn_STAT (Table 10.13). -/
def dacStat (e : Env) (m : M) (d : Nat) : Word :=
  let x := m.dac d
  BitVec.ofNat 32 (x.st.n + 8 * popCount x.marks + 64 * bit x.sameBank + 128 * bit x.rate2x + 512 * x.failCause.toNat)
    ||| (rd e m (rDac d 0) &&& 0x100)

/-- SLCn_GALLEY_STAT (R292, Table 6.5). -/
def galleyStat (m : M) (x : Nat) : Word :=
  let here := m.coh.galley.filter fun g => sliceOf g.line = x
  let kind (k : GKind) : Nat := (here.filter fun g => g.kind == k).length
  BitVec.ofNat 32 (min here.length 127 + 128 * min (kind .retain) 127 + 16384 * min (kind .through) 127
    + 2097152 * min (kind .victim) 15 + 33554432 * min (kind .mirrorIn) 15
    + 536870912 * bit (m.coh.txns.any fun t => t.galleyWait && sliceOf t.req.line == x)
    + 1073741824 * bit (m.coh.galleyFull.contains x))

/-- The effective ceiling in units of 0.25 W (R608, R724). -/
def effCeil (e : Env) (m : M) : Nat :=
  let top := e.fuse.powerFuse.toNat
  let c := min (max (fld (rd e m rCeil) 0 10) 240) top
  match m.ink.thermCeil with
  | some t => min c t
  | none => c

/-- A frisket's control word (Table 19.7, Table 10.14). -/
def Frisket.ctl (f : Frisket) : Word :=
  BitVec.ofNat 32 (bit f.armed + 2 * bit f.matchEn + 4 * f.matchAddr.toNat)
def Frisket.maskWord (f : Frisket) (j : Nat) : Word := (f.mask >>> (32 * j)).setWidth 32

/-- Word `k` of an entry of the errata log. -/
def LogEntry.word (x : LogEntry) (k : Nat) : Word := x.bits.extractLsb' (32 * k) 32

/-- A selected slip entry (R864, R865). -/
def slipEntry (m : M) (k : Nat) : Option LogEntry :=
  if m.err.degraded then (if k = 0 then m.err.slip0 else m.err.slip[k - 1]?) else m.err.slip[k]?

/-- The 16 counters of the predictor that SLCn_APP_CTRk shows. -/
def appCtr (m : M) (x k : Nat) : Word :=
  (List.range 16).foldl (fun w j =>
    w ||| ((Tab.get (fun _ => 0) m.coh.predictor (x * 256 + 16 * k + j)).setWidth 32 <<< (2 * j))) 0

/-- Sets of a slice with the lost bit, in order of loss (R172). -/
def lostSets (m : M) (x : Nat) : List Nat := (m.coh.lost.filter fun k => k / 8192 = x).map (· % 8192)

/-- Whether the analogue side of a link works: it sends the detect pattern, trains or runs (R313). -/
def LinkSt.lively (x : LinkSt) : Bool := x.st != .down
/-- What a link's analogue side shows of a lane while it works (R363, R871): open, and 0 while the link is DOWN (log entry 35). -/
def analogue (m : M) (l : Lnk) (w : Nat) : Word :=
  if (m.link l).lively then Config.lane (w * 2 ^ 64 + m.free) else 0
/-- The tick of the newest clearing read of a counter. -/
def M.clearedAt (m : M) (w : Nat) : Nat := Tab.get (fun _ => 0) m.acc.rcAt w
/-- A counter that the analogue side of a link holds: what it has counted until tick `stop` since its newest clearing read, which is open,
and 0 where no time has passed for it (R96, R363; log entry 35). -/
def analogCount (m : M) (w : Nat) (stop : Nat) : Word :=
  if stop ≤ m.clearedAt w then 0 else Config.lane ((w * 2 ^ 64 + m.clearedAt w) * 2 ^ 64 + stop)
/-- The tick until which a link's receivers have counted: now, or the tick of its entry into DOWN; 0 before it has run. -/
def LinkSt.countedTo (x : LinkSt) (now : Nat) : Nat := if !x.ran then 0 else if x.lively then now else x.since
/-- The tick until which a lane's PRBS check has counted (R874). -/
def prbsTo (e : Env) (m : M) (l : Lnk) (n : Nat) : Nat :=
  if holdDown e m l && (rd e m (l.base + 0x46 + 8 * n)).getLsbD 1 then m.now
  else Tab.get (fun _ => 0) m.acc.prbsEnd (l.base + 0x46 + 8 * n)
/-- Whether a register is a counter of the analogue side of a link. -/
def isAnalogCount (l : Lnk) (k : Nat) : Bool :=
  k = 2 || k = 0x19 || k = 0x1C || k = 0x1F
    || (0x40 ≤ k && k < 0x40 + 8 * l.lanes && ((k - 0x40) % 8 = 5 || (k - 0x40) % 8 = 7))
/-- A lane's word of xxx_LANEm_STAT (Table 19.7); whether a lane that is training has locked is open. -/
def laneStat (m : M) (l : Lnk) (n w : Nat) : Word :=
  let x := m.link l
  let locked := x.lively && !x.rxFailed.getLsbD n
    && (((x.st == .active || x.st == .initCredit) && x.groups.getLsbD (n / 8)) || (analogue m l w).getLsbD 0)
  BitVec.ofNat 32 (bit locked + 2 * bit (x.rxFailed.getLsbD n) + 4 * bit (x.txFailed.getLsbD n)
    + 8 * (Tab.get (fun _ => (0 : BitVec 6)) x.laneMap n).toNat)

/-- The registers of a link block (Table 19.4). -/
def linkView (e : Env) (m : M) (l : Lnk) (w : Nat) : Word :=
  let x := m.link l
  let k := w - l.base
  if k = 0 then linkStat x
  else if k = 2 then analogCount m w (x.countedTo m.now)
  else if k < 0xA then rd e m w
  else if k = 0xA then BitVec.ofNat 32 (x.txSeq.toNat + 65536 * x.rxExpected.toNat)
  else if k = 0xB then BitVec.ofNat 32 (min x.replay.length 1024)
  else if k = 0xC then BitVec.ofNat 32 (min x.winBad.length 0xFFF)
  else if k = 0xD then (x.rxFailed ||| x.txFailed).setWidth 32
  else if k = 0xE then
    (match l.host with
      | some p => BitVec.ofNat 32 (m.port p).sticks.length
      | none => 0)
  else if 0x10 ≤ k ∧ k < 0x14 then BitVec.ofNat 32 (x.avail.getD (k - 0x10) 0 % 8192)
  else if 0x14 ≤ k ∧ k < 0x18 then BitVec.ofNat 32 (x.adv.getD (k - 0x14) 0 % 4096)
  else if 0x18 ≤ k ∧ k < 0x21 then
    let g := (k - 0x18) / 3
    if !l.allGroups.getLsbD g then 0
    else if (k - 0x18) % 3 = 0 then
      BitVec.ofNat 32 (bit (x.widthSet && x.groups.getLsbD g)
        + 2 * bit ((x.widthSet || x.st == .align) && x.trained.getLsbD g && groupGood (x.rxFailed ||| x.txFailed) g))
    else if (k - 0x18) % 3 = 1 then analogCount m w (x.countedTo m.now)
    else rd e m w
  else if 0x40 ≤ k ∧ k < 0x40 + 8 * l.lanes then
    let n := (k - 0x40) / 8
    match (k - 0x40) % 8 with
    | 0 | 6 => rd e m w
    | 1 => (Tab.get (fun _ => (0 : BitVec 19)) x.taps n).setWidth 32
    | 3 => laneStat m l n w
    | 4 => analogue m l w &&& 0xFF
    | 5 => analogCount m w (x.countedTo m.now)
    | 7 => analogCount m w (prbsTo e m l n)
    | _ => analogue m l w
  else if l = .ckl then
    if k = 0x80 then pairStat m
    else if 0x82 ≤ k ∧ k ≤ 0x85 then m.mir.serial.extractLsb' (32 * (k - 0x82)) 32
    else if k = 0x86 then
      match m.mir.lastBeacon with
      | none => 0
      | some b => BitVec.ofNat 32 (b.seq.toNat + 4096 * b.pairState.toNat + 65536 * bit b.drainDone + 131072 * bit b.adopted
          + 262144 * bit b.cklUp + 524288 * bit b.side + 2147483648)
    else if k = 0x87 then
      match m.mir.heard with
      | none => 0xFFFFFFFF
      | some t => BitVec.ofNat 32 (min ((m.now - t) / 50) 0xFFFFFFFF)
    else if k = 0x81 ∨ (0x88 ≤ k ∧ k ≤ 0x8D) then rd e m w
    else 0
  else 0

/-- What a register reads as, for `path` where it is held for each path.  A read of QUO_n shows its owner (R842); the effects of a
direct-window read stand elsewhere. -/
def regView (e : Env) (m : M) (path : Path) (w : Nat) : Word :=
  let b := w / 0x1000
  let k := w % 0x1000
  let sel (n : Nat) : Word := Tab.get (fun _ => 0) m.acc.selVal (path.n * 64 + n)
  let cap (n j : Nat) : Word := (Tab.get (fun _ => []) m.acc.selCap (path.n * 64 + n)).getD j 0
  match ctrReg w with
  | some (0, i, c) => if i < 16 ∧ c = 8 then 0x0080F000 else if i < 16 ∧ c = 9 then 0x0080F001 else rd e m w
  | some (1, i, c) => (m.ctr i c).setWidth 32
  | some (2, i, c) => ((m.ctr i c) >>> 32).setWidth 32
  | some (_, _, _) => rd e m w
  | none =>
    if b = 0 then
      if k = 0 then m.modeActive.setWidth 32
      else if k = 1 then m.mode.settling.setWidth 32
      else if k = 2 then fwStat m
      else if k = 3 then (if m.jpc.hostHalt then 2 else 0)
      else if k = 4 then BitVec.ofNat 32 (m.ink.temp.toNat + 256 * bit m.ink.warn + 512 * bit m.ink.throttle)
      else if k = 5 then m.isl.clkFail
      else if k = 6 then m.isl.run
      else if k = 7 then (List.range 8).foldl (fun w d => if (m.dac d).sref then w ||| ((1 : Word) <<< d) else w) 0
      else if k = 9 then
        BitVec.ofNat 32 (bit m.pins.pairSide + 2 * m.pins.smbStraps.toNat + 16 * (0x58 + m.pins.smbStraps.toNat)
          + 2048 * bit m.pins.testEn)
      else if k = 12 then e.cfg.appPolicy.setWidth 32
      else if k = 16 ∨ k = 17 then
        (List.range 32).foldl (fun w q => if (m.quoin (32 * (k - 16) + q)).stale then w ||| ((1 : Word) <<< q) else w) 0
      else if k = 18 then 0
      else if k < 0x15 then rd e m w
      else
        let t := ratEntry e.cfg.rat ((k - 0x100) / 4)
        (t.word1 ++ t.word0).extractLsb' (32 * ((k - 0x100) % 4)) 32
    else if b = 1 then
      if k = 0 then e.fuse.caps
      else if k = 1 then BitVec.ofNat 32 (bit e.fuse.sigRequired)
      else if k = 2 then e.fuse.powerFuse.setWidth 32
      else if k = 3 then e.fuse.romVersion
      else if k < 8 then e.fuse.serial.extractLsb' (32 * (k - 4)) 32
      else if k < 0xC then e.fuse.linkLimit
      else if k = 0xC then (if e.fuse.variant.ckl then e.fuse.linkLimit else 0)
      else if 0x10 ≤ k ∧ k < 0x1C then e.fuse.keyHash.extractLsb' (32 * (k - 0x10)) 32
      else 0
    else if b = 2 then
      if k < 0x28 then
        if k = 15 ∨ k = 16 then (if e.fuse.variant.ckl then BitVec.ofNat 32 ((if k = 15 then m.mir.answered else m.mir.replied) % 65536) else 0)
        else if ringAbsent e.fuse.variant k then 0 else (m.head k).setWidth 32
      else if 0x40 ≤ k ∧ k < 0x68 then
        let r := k - 0x40
        if r = 15 ∨ r = 16 then (if e.fuse.variant.ckl then BitVec.ofNat 32 ((if r = 15 then m.mir.sent else m.mir.received) % 65536) else 0)
        else if ringAbsent e.fuse.variant r then 0 else (m.tail r).setWidth 32
      else 0
    else if b = 3 then (m.quoin k).owner.setWidth 32
    else if b = 4 then
      if k = 0 then
        BitVec.ofNat 32 (bit m.err.degraded + 2 * bit m.err.unnamed + 256 * (m.err.slip.length + bit (m.err.degraded && m.err.slip0.isSome)))
      else if k = 3 then m.err.next
      else if k = 4 then m.err.oldest
      else if k = 6 then sel 0
      else if k = 7 then sel 1
      else if 8 ≤ k ∧ k < 0x10 then cap 0 (k - 8)
      else if 0x10 ≤ k ∧ k < 0x18 then cap 1 (k - 0x10)
      else if k = 0x24 then m.err.frisket.ctl
      else if 0x25 ≤ k ∧ k ≤ 0x27 then m.err.frisket.maskWord (k - 0x25)
      else if k = 0x23 then 0
      else rd e m w
    else if b = 5 then
      if k = 0 then e.cfg.grant.setWidth 32
      else if k = 1 then e.cfg.floor.setWidth 32
      else if k = 2 then
        BitVec.ofNat 32 (bit (m.ink.sensorFault != 0) + 2 * bit m.ink.planMissing + 4 * bit m.ink.ceilLimiting) ||| (rd e m w &&& 8)
      else if k = 3 then BitVec.ofNat 32 (effCeil e m + 1024 * (m.ink.thermCeil.getD 0))
      else if k = 0xB then BitVec.ofNat 32 m.ink.bucket
      else if 0xC ≤ k ∧ k < 0x10 then BitVec.ofNat 32 (m.ink.carry.getD (k - 0xC) 0)
      else if 0x10 ≤ k ∧ k < 0x16 then BitVec.ofNat 32 (m.ink.quota.getD (k - 0x10) 0)
      else if 0x1C ≤ k ∧ k < 0x22 then BitVec.ofNat 32 (m.ink.deferred.getD (k - 0x1C) 0)
      else rd e m w
    else if b = 6 then
      if k = 0 then 0
      else if k = 1 then BitVec.ofNat 32 (bit m.prf.busy + 2 * bit m.prf.curSet)
      else if k = 2 then m.prf.gen
      else if k = 4 then
        BitVec.ofNat 32 (e.cfg.smpExp.toNat + 32 * e.cfg.smpMask.toNat + 128 * bit e.cfg.smpDither)
      else if k = 7 ∨ k = 8 then (Tab.get (fun _ => (0 : BitVec 16)) m.prf.smpSeq (k - 7)).setWidth 32
      else if k = 9 then e.cfg.histShift.setWidth 32
      else rd e m w
    else if b = 8 then
      if k = 0 then BitVec.ofNat 32 (bit (!m.coh.syncs.isEmpty) + 16 * min m.coh.syncs.length 16)
      else if k = 1 then ratCrc e.cfg.rat
      else if k = 2 then e.cfg.ratWrites
      else if k = 4 then sel 40
      else if k = 5 then sel 41
      else if k = 6 ∨ k = 7 then
        let l : Line := ((sel 41).setWidth 20 ++ sel 40 : BitVec 52).extractLsb' 7 45
        if k = 6 then BitVec.ofNat 32 (bit (twinSide l) + 2 * sliceOf l + 32 * setOf e.fuse.variant l)
        else BitVec.ofNat 32 (dirSet l + 8192 * appIndex l + 2097152 * dacOf e.fuse.variant l)
      else if 0x40 ≤ k ∧ k ≤ 0x5E then
        if k - 0x40 < 16 ∧ !sliceReady m (k - 0x40) then
          BitVec.ofNat 32 (min (m.coh.waiting.filter fun r => sliceOf r.line = k - 0x40).length 0xFFFF)
        else 0
      else 0
    else if b = 9 then 0
    else
      match blockLink b with
      | some l => linkView e m l w
      | none =>
        if 0x20 ≤ b ∧ b < 0x28 then
          let d := b - 0x20
          let x := m.dac d
          if k = 0 then dacStat e m d
          else if k = 1 then x.marks.setWidth 32
          else if k = 2 then (x.marks >>> 32).setWidth 32
          else if k = 8 then x.frisket.ctl
          else if k = 9 then x.frisket.maskWord 0
          else if k = 0xA then ((x.frisket.mask >>> 32).setWidth 8).setWidth 32 ||| (x.frisket.beats.setWidth 32 <<< 8)
          else if k = 0xB then BitVec.ofNat 32 (x.stepDone.toNat + 8 * x.stepFailed.toNat)
          else if 0x28 ≤ k ∧ k < 0x50 then
            let n := k - 0x28
            BitVec.ofNat 32 (bit (x.marks.getLsbD n) + 2 * (Tab.get (fun _ => (0 : BitVec 3)) x.markCause n).toNat
              + 16 * bit (x.trainFail.getLsbD n)) ||| (rd e m w &&& 0xFFFF0000)
          else if 0x23 ≤ k ∧ k ≤ 0x27 then 0
          else rd e m w
        else if 0x40 ≤ b then
          let x := b - 0x40
          if k = 0 then galleyStat m x
          else if k = 1 then Tab.get (fun _ => (0 : Word)) m.proof.excl x
          else if k = 2 then Tab.get (fun _ => (0 : Word)) m.proof.retired x
          else if k = 3 then
            BitVec.ofNat 32 (bit (m.isl.div2.getLsbD x) + 2 * bit (m.coh.sweeps.any fun s => s.1 == x) + 4 * bit (m.proof.sliceLost.contains x))
          else if k = 4 then BitVec.ofNat 32 (lostSets m x).length
          else if k = 5 then sel (2 + x)
          else if k = 6 then sel (18 + x)
          else if 8 ≤ k ∧ k < 0xC then cap (2 + x) (k - 8)
          else if 0xC ≤ k ∧ k < 0x10 then cap (18 + x) (k - 0xC)
          else if 0x10 ≤ k ∧ k < 0x20 then
            match (lostSets m x)[k - 0x10]? with
            | some s => BitVec.ofNat 32 (s + 2147483648)
            | none => 0
          else if 0x20 ≤ k ∧ k < 0x2C then
            let f := m.slcFrisket ((k - 0x20) / 4 + 1) x
            if (k - 0x20) % 4 = 0 then f.ctl else f.maskWord ((k - 0x20) % 4 - 1)
          else if 0x50 ≤ k ∧ k < 0x60 then appCtr m x (k - 0x50)
          else 0
        else rd e m w

/-- Registers that the mirror window does not serve (R857). -/
def unmirrored (w : Nat) : Bool :=
  let b := w / 0x1000
  let k := w % 0x1000
  (match ctrReg w with
    | some (1, _, _) | some (2, _, _) => true
    | _ => false)
  || (b = 0 && k = 18) || (b = 2 && 0x80 ≤ k) || (b = 4 && 6 ≤ k && k < 0x18) || (b = 6 && (k = 0 || 0xE ≤ k))
  || (b = 8 && (k = 6 || k = 7)) || (b = 9 && k = 0)
  || (0x40 ≤ b && (k = 5 || k = 6 || (8 ≤ k && k < 0x10)))

/-! ### RC bits (R824) -/

/-- The bits of a register that a direct-window read clears. -/
def rcBits (w : Nat) : Word :=
  let b := w / 0x1000
  let k := w % 0x1000
  match ctrReg w with
  | some (3, _, _) => 0x3FF
  | some _ => 0
  | none =>
    if b = 4 then (if k = 1 then 0xFFF else if k = 5 ∨ (0x18 ≤ k ∧ k ≤ 0x22) then 0xFFFFFFFF else 0)
    else if b = 5 then (if k = 2 then 8 else 0)
    else if b = 6 then (if k = 5 ∨ k = 6 then 0xFFFFFFFF else 0)
    else if b = 7 then (if k = 3 then 0xFFFFFFFF else 0)
    else
      match blockLink b with
      | some l =>
        if (2 ≤ k ∧ k ≤ 8) ∨ (0x18 ≤ k ∧ k < 0x21 ∧ (k - 0x18) % 3 ≠ 0) then 0xFFFFFFFF
        else if 0x40 ≤ k ∧ k < 0x40 + 8 * l.lanes ∧ ((k - 0x40) % 8 = 5 ∨ (k - 0x40) % 8 = 7) then 0xFFFFFFFF
        else if l = .ckl ∧ 0x88 ≤ k ∧ k ≤ 0x8D then 0xFFFFFFFF
        else 0
      | none =>
        if 0x20 ≤ b ∧ b < 0x28 then
          (if k = 0 then 0x100 else if k = 3 ∨ k = 4 then 0xFFFFFFFF else if 0x28 ≤ k ∧ k < 0x50 then 0xFFFF0000 else 0)
        else if 0x40 ≤ b then (if k = 0 then 0x40000000 else 0)
        else 0

/-- Clears the RC bits of a register that has been read through the direct window (R96). -/
def clearRc (e : Env) (m : M) (w : Nat) : M :=
  if rcBits w == 0 then m
  else if 0x40000 ≤ w then
    if w % 0x1000 = 0 then m.setCoh fun c => { c with galleyFull := c.galleyFull.filter (· ≠ w / 0x1000 - 0x40) }
    else wr e m w (rd e m w &&& ~~~(rcBits w))
  else if (blockLink (w / 0x1000)).any fun l => isAnalogCount l (w % 0x1000) then
    m.setAcc fun a => { a with rcAt := Tab.put (fun _ => 0) a.rcAt w m.now }
  else wr e m w (rd e m w &&& ~~~(rcBits w))

/-! ### Privilege (Tables 18.3, 12.2 and 17.7) -/

def grantOpen (e : Env) (m : M) (p : HPort) : Bool := (rd e m rUserGrant).getLsbD p.n

/-- The rings of a host port: CMD0, CMD1, RSP, EVT and SMP are `ringBase p` to `ringBase p + 4`. -/
def ringBase (p : HPort) : Nat := 5 * p.n

/-- What an in-band access with priv 0 on a port may reach (Table 18.3). -/
def unprivOk (e : Env) (m : M) (p : HPort) (t : Target) (write : Bool) : Bool :=
  let r0 := ringBase p
  let reg (w : Nat) : Bool :=
    let b := w / 0x1000
    let k := w % 0x1000
    if write then
      (b = 2 && (k = 0x80 + r0 || k = 0x81 + r0 || k = 0x82 + r0 || (k = 0x84 + r0 && grantOpen e m p)))
        || (b = 3 && (rd e m (rQuoUser + k / 32)).getLsbD (k % 32))
    else
      b = 1 || w = 0 || w = 2
        || (b = 2 && k < 0x68 && (k < 0x40 || 0x40 ≤ k) && (k % 0x40 = r0 || k % 0x40 = r0 + 1 || k % 0x40 = r0 + 2
            || (k % 0x40 = r0 + 4 && grantOpen e m p)))
        || (b = 3 && (rd e m (rQuoUser + k / 32)).getLsbD (k % 32))
        || ((w = 0x6001 || w = 0x6002) && grantOpen e m p)
  match t with
  | .direct w own => own && reg w
  | .mirror w own => own && reg w
  | .alias_ w _ own => own && reg w
  | .ring r _ =>
    if write then r = r0 || r = r0 + 1
    else r = r0 + 2 || (r = r0 + 4 && grantOpen e m p)
  | .holding _ _ => !write && grantOpen e m p
  | .nothing => false

/-- Whether an access is allowed to its requester (R389, R811); the other paths are always privileged. -/
def allowed (e : Env) (m : M) (a : Acc) (t : Target) (write : Bool) : Bool :=
  match a.path.host with
  | some p => a.priv || unprivOk e m p t write
  | none => true

/-! ### Owner IDs (Table 18.7) -/

/-- The owner ID of a requester. -/
def ownerId (a : Acc) : BitVec 9 :=
  BitVec.ofNat 9 ((a.path.n + 1) * 64 + (if a.path.host.isSome then a.agent.toNat else 0))

end Sys2Proof.Machine
end

