-- ==== Sys2Proof/Machine/Firmware.lean ====
section
/-!
DEFINITION. The restart and the halt of the Jupor controller (R600 to R605), the watchdog and the faults of the firmware.
-/

namespace Sys2Proof.Machine

open Sys2Proof

/-- The source of the controller's log entries: its island. -/
def srcJpc : Nat := 30

/-- Empties a ring: its head moves up to its tail. -/
def emptyRing (m : M) (r : Nat) : M := m.setHead r (m.tail r)
/-- The rings that a Jupor restart empties (Table 12.11). -/
def restartRings (m : M) : M := [13, 14, 18, 19, 20, 21].foldl emptyRing m

/-- What the firmware has in hand and loses when the JPC is reset: its quoins, its pairing attempt and its staging session
(R516, R674, R846). -/
def loseFirmware (e : Env) (m : M) : M :=
  let m := loseQuoins m fun o => ownerPath o = 5
  let attempt := m.twin.st == .hello || m.twin.st == .shed
  let m := abandonAttempt e m 2
  m.setJpc fun j => { j with session := none, turn1 := 0, turn0 := 0, pairAborted := j.pairAborted || attempt }

/-- Entry into HALTED (R605): cause 1 the restart limit, 2 the host, 3 the JPC clock. -/
def haltJpc (e : Env) (m : M) (cause : Nat) : M :=
  let was := m.jpc.fw
  let m := m.setJpc fun j => { j with
    fw := .halted, hostHalt := j.hostHalt || cause == 2, clockHalt := j.clockHalt || cause == 3 }
  if was == .halted then m
  else
    let m := loseFirmware e m
    let m := log e m 0x0702 srcJpc (BitVec.ofNat 32 cause) 0 0
    postEvt e m 0x0003 0 (BitVec.ofNat 352 cause)

/-- The number of AON ticks in 60 s. -/
def ticks60s : Nat := 3000000000

/-- A Jupor restart (R600 to R602, R605).  The fourth within 60 s that the watchdog or a fault caused leaves the JPC halted. -/
def restartJpc (e : Env) (m : M) (cause : Nat) : M :=
  if m.jpc.clockHalt then m
  else
    let fault := cause == 3 || cause == 4
    let ticks := if fault then (m.now :: m.jpc.faultTicks).take 4 else m.jpc.faultTicks
    let tooMany := fault && match ticks.drop 3 with
      | t :: _ => decide (m.now < t + ticks60s)
      | [] => false
    let m := m.setJpc fun j => { j with
      fw := .restarting, hostHalt := false, restartCause := BitVec.ofNat 3 cause, faultTicks := ticks
      restarts := if j.restarts == 0xFF then 0xFF else j.restarts + 1 }
    let m := restartRings (loseFirmware e m)
    let m := log e m 0x0701 srcJpc (BitVec.ofNat 32 cause) 0 0
    if tooMany then haltJpc e m 1 else m

/-- The watchdog has not been written within 250 ms; it runs only while an image runs (R601). -/
def execWatchdogExpiry (s : State) : Host.Outcome State Fault Refusal :=
  act s fun e m =>
    if m.jpc.fw != .running then m else restartJpc e (elapseTo e m (m.jpc.wdogTick + 12500000)) 3

/-- A firmware fault that the JPC reports (R600). -/
def execFirmwareFault (s : State) : Host.Outcome State Fault Refusal :=
  act s fun e m => if m.jpc.fw != .running then m else restartJpc e m 4

/-- A Jupor restart with one of the causes of Table 12.10.  A halted JPC restarts only for GLB_JPC_CTL.restart. -/
def execJpcRestart (cause : BitVec 3) (s : State) : Host.Outcome State Fault Refusal :=
  act s fun e m =>
    if cause == 0 || 5 ≤ cause.toNat || (m.jpc.fw == .halted && cause != 2) then m else restartJpc e m cause.toNat

/-- The firmware's write of JPC_WDOG; any value will do (R601). -/
def execJpcWdogWrite (_value : Word) (s : State) : Host.Outcome State Fault Refusal :=
  run s fun _ m => whenAlive m fun m => m.setJpc fun j => { j with wdogTick := m.now }

end Sys2Proof.Machine
end

