-- ==== Sys2Proof/Machine/Islands.lean ====
section
/-!
DEFINITION. The clock islands (chapter 2): stop and wake, the AON copy of the registers, failed clocks and the crystal, and accesses
that are abandoned.
-/

namespace Sys2Proof.Machine

open Sys2Proof

/-! ### The AON copy (R92 to R95) -/

/-- The block windows of an island with the number of slots in each. -/
def islandBlocks (i : Nat) : List Nat :=
  if i < 16 then [0x40 + i]
  else if i = 16 then [0, 3, 6, 8]
  else if i < 21 then [0x10 + (i - 17)]
  else if i < 29 then [0x20 + (i - 21)]
  else if i = 29 then [0xA]
  else if i = 30 then [2, 9]
  else [0, 1, 4, 5, 7]

/-- The mirrored registers of an island. -/
def islandRegs (i : Nat) : List Nat :=
  (islandBlocks i).flatMap fun b =>
    ((List.range 0x200).filter fun k => slotIn b k && regIsland (b * 0x1000 + k) == i && !unmirrored (b * 0x1000 + k)).map
      fun k => b * 0x1000 + k

/-- AON captures the registers of one island. -/
def captureIsland (e : Env) (m : M) (i : Nat) : M :=
  let copy := (islandRegs i).foldl (fun t w => Tab.put (fun _ => 0) t w (regView e m .jpc w)) m.isl.mirror
  m.setIsl fun x => { x with mirror := copy }

/-- What the mirror window returns for a register (R93, R94, R857).  The copy of a running island is at most 60 ns old: a capture
older than that is renewed (log entry 36). -/
def mirrorRead (e : Env) (m : M) (w : Nat) : Word :=
  let i := regIsland w
  let fresh := match m.isl.mirrorTick with
    | some t => decide (m.now ≤ t + 3)
    | none => false
  if unmirrored w || regAbsent e.fuse.variant w then 0
  else if m.island i && !fresh then regView e m .jpc w
  else Tab.get (fun _ => 0) m.isl.mirror w

/-- The AON island captures every running island (R92). -/
def execMirrorCapture (s : State) : Host.Outcome State Fault Refusal :=
  run s fun e m => whenAlive m fun m =>
    let m := (List.range 32).foldl (fun m i => if m.island i then captureIsland e m i else m) m
    m.setIsl fun x => { x with mirrorTick := some m.now }

/-! ### Stop and wake (R72 to R86) -/

/-- The islands that may be stopped at all (R72). -/
def stoppable (i : Nat) : Bool := i < 16 || (17 ≤ i && i ≤ 29)
/-- The conditions of R73 to R76 and of R79. -/
def canStop (e : Env) (m : M) (i : Nat) : Bool :=
  stoppable i && (rd e m rStopEn).getLsbD i && m.island i && !m.isl.waking.getLsbD i && !m.wakeNow i &&
    (if i < 16 then
      !(m.coh.txns.any fun t => sliceOf t.req.line == i) && !(m.coh.galley.any fun g => sliceOf g.line == i)
        && !(m.coh.staging.any fun g => sliceOf g.line == i) && !(m.coh.waiting.any fun r => sliceOf r.line == i)
        && !((List.range 8).any fun k => (m.slot i k).armed) && !(m.coh.fills.any fun f => sliceOf f.line == i)
        && !((List.range 8).any fun d => (m.dac d).corrections.any fun a => cwSlice e a.toNat == i)
    else if i = 29 then m.twin.solo && m.twin.st != .hello && m.twin.st != .shed
    else if i < 21 then
      (match blockLink (0x10 + (i - 17)) with
        | some l => (m.link l).st == .down
        | none => false)
    else
      let d := i - 21
      (m.dac d).st != .training && (m.dac d).corrections.isEmpty && (m.dac d).diag.isNone
        && !(m.coh.daReads.any fun r => dacOf e.fuse.variant r.line == d)
        && !(m.coh.galley.any fun g => (g.daBusy || g.daAgain) && dacOf e.fuse.variant g.line == d)
        && !(m.coh.fills.any fun f => dacOf e.fuse.variant f.line == d))

/-- An island stops (R77): its counters are copied to the parked set, and the AON copy keeps what it last captured. -/
def stopIsland (e : Env) (m : M) (i : Nat) : M :=
  let m := captureIsland e m i
  let m := m.setIsl fun x => { x with
    run := x.run &&& ~~~((1 : Word) <<< i), excluded := x.excluded ||| ((1 : Word) <<< i)
    parkedTick := Tab.put (fun _ => 0) x.parkedTick i m.now }
  let m := m.setPrf fun p => { p with
    parked := (List.range 16).foldl (fun t k => Tab.put (fun _ => 0) t (i * 16 + k) (m.ctr i k)) p.parked }
  if 21 ≤ i && i < 29 then m.setDac (i - 21) { m.dac (i - 21) with stoppedAt := some m.now } else m

/-- A stop requested by the firmware: carried out or abandoned (R77, R79). -/
def execIslandStop (i : Fin 32) (s : State) : Host.Outcome State Fault Refusal :=
  run s fun e m => whenAlive m fun m =>
    if m.jpc.fw == .running && canStop e m i then stopIsland e m i else m

/-- An island wakes (R78, R84); the attribute cache of a slice is empty then (R160), and a message that the XBR holds for a channel brings
its components out of self-refresh (Table 2.4). -/
def wakeIsland (e : Env) (m : M) (i : Nat) : M :=
  let held := m.isl.waking.getLsbD i
  let m := noteWake m i
  if m.isl.run.getLsbD i || m.isl.clkFail.getLsbD i || !(presentIslands e.fuse.variant).getLsbD i then m
  else
    let m := m.setIsl fun x => { x with
      run := x.run ||| ((1 : Word) <<< i), waking := x.waking &&& ~~~((1 : Word) <<< i)
      excluded := x.excluded ||| ((1 : Word) <<< i) }
    if i < 16 then fin e (m.setSpans i [])
    else if 21 ≤ i && i < 29 then
      let m := m.setDac (i - 21) { m.dac (i - 21) with stoppedAt := none }
      if held then leaveSref m (i - 21) else m
    else m

/-- A wake cause of an island (R78, R79).  A message brings a DAC's components out of self-refresh (Table 2.4), a register access
does not (R85), and a refresh falls due only outside self-refresh, and not for a FAILED channel (R81, R496). -/
def execIslandWake (i : Fin 32) (cause : WakeCause) (s : State) : Host.Outcome State Fault Refusal :=
  run s fun e m => whenAlive m fun m =>
    let dac : Bool := 21 ≤ i.val && i.val < 29
    let d := i.val - 21
    if cause == .refresh && (!dac || (m.dac d).sref || (m.dac d).st == .failed) then m
    else if cause == .firmware && m.jpc.fw != .running then m
    else
      let m := wakeIsland e m i
      if dac && cause == .message then leaveSref m d else m

/-! ### Failed clocks (R100 to R108) -/

/-- A slice is lost (R765): cause 1 its clock, 2 proof, 3 miss tracking. -/
def loseSlice (e : Env) (m : M) (x cause : Nat) : M :=
  if m.proof.sliceLost.contains x then m
  else
    let m := log e m 0x0004 x (BitVec.ofNat 32 x) (BitVec.ofNat 32 cause) 0
    let m := m.setProof fun p => { p with sliceLost := p.sliceLost ++ [x] }
    let m := m.setPins fun p => { p with ready := false }
    m.setBoot fun b => { b with txStopped := true, stopped := b.stopped || decide (b.phase < 8) }

/-- The action of Table 2.7 for a failed island; `reason` is the down reason of a link. -/
def clockAction (e : Env) (m : M) (i reason : Nat) : M :=
  if i < 16 then loseSlice e m i 1
  else if i = 16 then
    (m.setPins fun p => { p with ready := false }).setBoot fun b => { b with
      txStopped := true, stopped := b.stopped || decide (b.phase < 8) }
  else if i = 30 then (haltJpc e m 3).setBoot fun b => { b with stopped := b.stopped || decide (b.phase < 8) }
  else if 21 ≤ i ∧ i < 29 then failDac e m (i - 21) 4
  else
    match (if i = 29 then some Lnk.ckl else blockLink (0x10 + (i - 17))) with
    | none => m
    | some l =>
      let m := linkDown e m l reason
      let m := m.setLink l { m.link l with downReason := reason }
      if l == .ckl then declareLost e m else m

/-- An island's clock is declared failed (R107, R108); its run bit stays as it was (R112, log entry 27). -/
def clkFail (e : Env) (m : M) (i reason : Nat) : M :=
  if m.isl.clkFail.getLsbD i || !(presentIslands e.fuse.variant).getLsbD i then m
  else
    let m := captureIsland e m i
    let m := m.setIsl fun x => { x with clkFail := x.clkFail ||| ((1 : Word) <<< i) }
    let m := log e m 0x0001 31 (BitVec.ofNat 32 i) 0 0
    clockAction e m i reason

/-- A woken island has not reported ready within 2 µs (R103). -/
def execWakeReadyTimeout (i : Fin 32) (s : State) : Host.Outcome State Fault Refusal :=
  act s fun e m =>
    if !stoppable i || m.isl.run.getLsbD i then m else clkFail e (elapse e m 100) i 5

/-- Ten times the count that Table 2.6 expects of an island. -/
def expectedCount (e : Env) (m : M) (i : Nat) : Nat :=
  if i < 16 then (if m.isl.div2.getLsbD i then 880 else 1760)
  else if i = 16 then 1760
  else if i = 30 then 800
  else if 21 ≤ i && i < 29 then 960 + 80 * fld (rd e m (rDac (i - 21) 0xC)) 0 3
  else 1328
/-- Whether a count lies outside ±6.25 % of what is expected. -/
def countBad (expected count : Nat) : Bool := 160 * count < 15 * expected || 17 * expected < 160 * count

/-- The down reason of a link whose island's clock fails: REF_LOST where its reference is lost, else CLOCK_FAIL (Table 7.17). -/
def refReason (refLost : List Lnk) (i : Nat) : Nat := if refLost.any fun l => l.island = i then 4 else 5
/-- A link group's reference is lost: the link goes DOWN (R105). -/
def refLoss (e : Env) (m : M) (l : Lnk) : M := if (m.link l).st == .down then m else linkDown e m l 4

/-- The end of a window of 256 AON ticks; windows end at multiples of 256 (log entry 37).  Two failed windows in a row declare the
clock failed (R101); a window with a stop, a wake or a divider change is left out, and leaves the mark of the window before it as it is (log
entry 37); the check rests while the crystal is lost.  The window also names the link groups whose reference the device finds lost (R105). -/
def execClockCheckWindow (found : ClockWindow) (s : State) : Host.Outcome State Fault Refusal :=
  act s fun e m =>
    let m := elapseTo e m ((m.now / 256 + 1) * 256)
    let m := found.refLost.foldl (refLoss e) m
    let skip := m.isl.excluded
    let m := m.setIsl fun x => { x with excluded := 0 }
    if m.isl.clkFail.getLsbD 31 then m
    else
      found.counts.foldl (fun m (i, n) =>
        if !m.island i || skip.getLsbD i then m
        else if !countBad (expectedCount e m i) n then
          m.setIsl fun x => { x with failedWindow := x.failedWindow &&& ~~~((1 : Word) <<< i.val) }
        else if m.isl.failedWindow.getLsbD i then clkFail e m i (refReason found.refLost i)
        else m.setIsl fun x => { x with failedWindow := x.failedWindow ||| ((1 : Word) <<< i.val) }) m

/-- An island whose PLL has not locked: its clock is declared failed, and the link of a port or of the CKL stays DOWN with REF_LOST, also
where a warm reset has found the clock failed already (R106). -/
def unlockedPll (e : Env) (m : M) (i : Nat) : M :=
  let m := clkFail e m i 4
  match (if i = 29 then (if e.fuse.variant.ckl then some Lnk.ckl else none) else if 17 ≤ i ∧ i < 21 then blockLink (0x10 + (i - 17)) else none) with
  | some l => m.setLink l { m.link l with downReason := 4 }
  | none => m
/-- The PLLs of the named islands have not locked within 1 ms of the start (R106). -/
def execPllLockTimeout (unlocked : BitVec 32) (s : State) : Host.Outcome State Fault Refusal :=
  act s fun e m =>
    if m.boot.phase ≠ 1 then m
    else
      let m := elapseTo e m (m.boot.since + 50000)
      (List.range 31).foldl (fun m i => if unlocked.getLsbD i then unlockedPll e m i else m) m

/-- No crystal edge arrives within four periods of the internal oscillator (R109 to R111). -/
def execXtalLost (s : State) : Host.Outcome State Fault Refusal :=
  run s fun e m => whenAlive m fun m =>
    if m.isl.clkFail.getLsbD 31 then m
    else log e (m.setIsl fun x => { x with clkFail := x.clkFail ||| 0x80000000 }) 0x0002 31 0 0 0

/-! ### Abandoned accesses (R91) -/

/-- What a path shows of an access that was abandoned (R813, R817, R818). -/
def showAbandoned (m : M) (path : Path) (write : Bool) (addr : Word) : M :=
  let m := if write then m else m.setAcc fun a => { a with readData := 0xFFFFFFFF }
  match path with
  | .smbus => m.setAcc fun a => if write then { a with smbStatus := 1 } else { a with smbRead := 1, smbData := 0xFFFFFFFF }
  | .jtag => m.setAcc fun a => { a with
      jtagAddr := addr, jtagData := if write then a.jtagData else 0xFFFFFFFF, jtagDone := true, jtagAbandoned := true }
  | _ => m

/-- An access is abandoned 2 µs after it left its register controller, and the island is named in the log. -/
def abandon (e : Env) (m : M) (island : Nat) (addr : Word) : M :=
  log e (elapse e m 100) 0x0003 island (BitVec.ofNat 32 island) addr 0

def execAccessAbandon (path : Path) (island : Fin 32) (addr : Word) (write : Bool) (s : State) : Host.Outcome State Fault Refusal :=
  run s fun e m => whenAlive m fun m => showAbandoned (abandon e m island addr) path write addr

end Sys2Proof.Machine
end

