-- ==== Sys2Proof/Machine/Counters.lean ====
section
/-!
DEFINITION. Counters and sampling (chapter 17): the snapshot walk and its holding sets, and the commands of the PERF group.
-/

namespace Sys2Proof.Machine

open Sys2Proof

/-! ### The walk (R786 to R791) -/

/-- Writes one word of a holding set. -/
def putHold (m : M) (set w : Nat) (v : Word) : M :=
  m.setPrf fun p => { p with holding := Tab.put (fun _ => 0) p.holding (set * 1024 + w) v }
/-- The set that a walk writes. -/
def otherSet (m : M) : Nat := 1 - bit m.prf.curSet

/-- A walk begins: the generation of its set is 0xFFFF_FFFF until it ends (R789). -/
def beginWalk (m : M) : M :=
  let m := m.setPrf fun p => { p with busy := true, firstTick := m.now }
  putHold m (otherSet m) 0 0xFFFFFFFF
/-- A start of a walk; while one runs, one more is held and further starts merge with it (R788). -/
def startWalk (m : M) : M := if m.prf.busy then m.setPrf fun p => { p with heldStart := true } else beginWalk m

/-- The event code that counter `k` of an island shows. -/
def ctrEvent (e : Env) (m : M) (i k : Nat) : Nat :=
  if i < 16 ∧ 8 ≤ k then 0xF000 + (k - 8)
  else match ctrGroup i with
    | some (b, p, _) => fld (rd e m (b + p + k)) 0 16
    | none => 0
/-- The value of a counter that the walk takes: of a stopped island the parked one (R98). -/
def walkValue (m : M) (i k : Nat) : BitVec 48 :=
  if m.isl.run.getLsbD i then m.ctr i k else Tab.get (fun _ => 0) m.prf.parked (i * 16 + k)
/-- The 128 bytes of the record of island `i` (Table 17.6). -/
def walkRecord (e : Env) (m : M) (i tick flags : Nat) : Nat :=
  let kk := match ctrGroup i with
    | some (_, _, n) => n
    | none => 0
  let ovf : Word := match ctrGroup i with
    | some (b, p, n) => rd e m (b + p + 3 * n)
    | none => 0
  let value (k : Nat) : Nat := if flags < 2 then (walkValue m i k).toNat + bit (ovf.getLsbD k) * 2 ^ 63 else 0
  tick + flags * 2 ^ 64 + kk * 2 ^ 72
    + (List.range kk).foldl (fun n k => n + ctrEvent e m i k * 2 ^ (96 + 16 * k) + value k * 2 ^ (256 + 64 * k)) 0
/-- Writes a record. -/
def putRecord (m : M) (set i x : Nat) : M :=
  (List.range 32).foldl (fun m j => putHold m set (32 + 32 * i + j) (BitVec.ofNat 32 (x / 2 ^ (32 * j)))) m

/-- The capture of one island, which answers after `wait` ticks; answers the first and the last capture so far (R787, R97, R98).
A block that is absent, failed or silent has no capture, so its tick is open (log entry 38). -/
def captureBlock (e : Env) (set : Nat) (acc : M × Option (Nat × Nat)) (i wait : Nat) : M × Option (Nat × Nat) :=
  let (m, ticks) := acc
  if !(presentIslands e.fuse.variant).getLsbD i then
    ({ putRecord m set i (walkRecord e m i (Config.freeWord m.free).toNat 2) with free := m.free + 1 }, ticks)
  else if m.isl.clkFail.getLsbD i then
    ({ putRecord m set i (walkRecord e m i (Config.freeWord m.free).toNat 4) with free := m.free + 1 }, ticks)
  else if !m.isl.run.getLsbD i then
    (putRecord m set i (walkRecord e m i (Tab.get (fun _ => 0) m.isl.parkedTick i) 1), ticks)
  else if 3 < wait then
    let m := elapse e m 3
    ({ putRecord m set i (walkRecord e m i (Config.freeWord m.free).toNat 8) with free := m.free + 1 }, ticks)
  else
    let m := elapse e m wait
    (putRecord m set i (walkRecord e m i m.now 0), some (match ticks with
      | some (a, _) => (a, m.now)
      | none => (m.now, m.now)))

/-- The response of the PERF_SNAP whose walk has ended (R664). -/
def endSnap (e : Env) (m : M) (first : Nat) : M :=
  match m.prf.snapCmd with
  | none => m
  | some c =>
    if c.held then m.setPrf fun p => { p with snapCmd := some { c with held := false } }
    else if m.jpc.fw != .running then m
    else postRsp e (m.setPrf fun p => { p with snapCmd := none }) c.desc 0x0901 0 c.prived
      (resAt 8 m.prf.gen.toNat ||| resAt 12 first)

/-- The walk visits its blocks and ends: the records, the generation, and the set that PRF_SNAP_STAT names (R789).  `waits` are the
AON ticks for which it waited for each block. -/
def endWalk (e : Env) (m : M) (waits : List Nat) : M :=
  if !m.prf.busy then m
  else
    let set := otherSet m
    let (m, ticks) := (List.range 31).foldl (fun acc i => captureBlock e set acc i (waits.getD i 0)) (m, none)
    let (first, last) := ticks.getD (m.prf.firstTick, m.now)
    let head : Nat := first + last * 2 ^ 64 + 31 * 2 ^ 128
    let m := (List.range 6).foldl (fun m j => putHold m set (2 + j) (BitVec.ofNat 32 (head / 2 ^ (32 * j)))) m
    let m := putHold m set 0 (m.prf.gen + 1)
    let again := m.prf.heldStart
    let m := m.setPrf fun p => { p with gen := p.gen + 1, curSet := !p.curSet, busy := false, heldStart := false }
    let m := endSnap e m first
    if again then beginWalk m else m

def execPrfWalkDone (ticks : List Nat) (s : State) : Host.Outcome State Fault Refusal :=
  run s fun e m => whenAlive m fun m => endWalk e m ticks

/-! ### The PERF group (R662 to R666) -/

/-- The island and the programmable counters of a block named by PERF_CFG; none where the block has no such unit or counter. -/
def perfBlock (block unit : Nat) : Option (Nat × Nat) :=
  match block with
  | 0 => if unit < 16 then some (unit, 8) else none
  | 1 => if unit < 4 then some (17 + unit, 8) else none
  | 2 => if unit < 8 then some (21 + unit, 6) else none
  | 3 => if unit = 0 then some (29, 6) else none
  | 4 => if unit = 0 then some (16, 8) else none
  | 5 => if unit = 0 then some (30, 4) else none
  | _ => none
/-- The control word of a counter that PERF_CFG bytes 11 to 15 state. -/
def perfCtl (flags event qual : Nat) : Word :=
  BitVec.ofNat 32 (event + qual % 128 * 2 ^ 16 + flags % 2 * 2 ^ 23)

/-- PERF_CFG, which reaches the island's registers and so wakes it (R78).  The previous setting is returned in the argument layout, its clear bit 0. -/
def execPerfCfg (d : Desc) (s : State) : Host.Outcome State Fault Refusal :=
  run s fun e m => whenAlive m fun m =>
    let b := descArg d 8 1
    let unit := descArg d 9 1
    let k := descArg d 10 1
    let flags := descArg d 11 1
    let event := descArg d 12 2
    let qual := descArg d 14 2
    let place := perfBlock b unit
    let (i, n) := place.getD (0, 0)
    let bad := place.isNone || decide (n ≤ k) || decide (4 ≤ flags) || decide (128 ≤ qual) || !eventListed i event
      || !descOnly d [(8, 8)]
    let absent := (b == 3 && !e.fuse.variant.ckl) || (b == 2 && unit < 8 && decide (e.fuse.variant.dacs ≤ unit))
    command e m d { opcode := 0x0900, absent := absent, badArg := bad } fun m =>
      match ctrGroup i with
      | none => (m, 0)
      | some (base, p, _) =>
        let m := wakeIsland e m i
        let w := base + p + k
        let old := rd e m w
        let m := wr e m w (perfCtl flags event qual)
        let m := if flags / 2 % 2 = 1 then m.setCtr i k 0 else m
        (m, resAt 8 (b + unit * 2 ^ 8 + k * 2 ^ 16 + fld old 23 1 * 2 ^ 24 + fld old 0 16 * 2 ^ 32 + fld old 16 7 * 2 ^ 48))

/-- PERF_SNAP: the walk starts, and the response is posted when it has ended (R664); without privilege it is served to a port whose
grant is open (R665). -/
def execPerfSnap (d : Desc) (s : State) : Host.Outcome State Fault Refusal :=
  run s fun e m => whenAlive m fun m =>
    let c : Cmd := { opcode := 0x0901, badArg := !descOnly d [],
                     any := (d.ring.val < 2 && grantOpen e m .hpa) || ((d.ring.val == 5 || d.ring.val == 6) && grantOpen e m .hpb) }
    if !served m d c then m
    else
      let p := privileged m d
      let m := takeDesc m d
      match refusal m d c p with
      | some (st, b) => postRsp e m d c.opcode st p (refusalResult m c st b)
      | none =>
        let held := m.prf.busy
        startWalk (m.setPrf fun x => { x with snapCmd := some ⟨d, p, held⟩ })

/-- The settings of the samplers change: each port loads its down-counter at its next counted request (R797). -/
def resample (m : M) : M := m.setPrf fun p => { p with countdown := [], reload := [] }

/-- SAMPLE_CFG. -/
def execSampleCfg (d : Desc) (s : State) : Host.Outcome State Fault Refusal :=
  runCfg s fun fuse cfg m =>
    if !m.alive then (cfg, m)
    else
      let ex := descArg d 8 1
      let mask := descArg d 9 1
      let dither := descArg d 10 1
      let bad := decide (ex < 4) || decide (20 < ex) || mask == 0 || decide (4 ≤ mask) || decide (2 ≤ dither) || !descOnly d [(8, 3)]
      let c : Cmd := { opcode := 0x0902, absent := !fuse.variant.sample, badArg := bad }
      let ok := served m d c && (refusal m d c (privileged m d)).isNone
      let m := command ⟨fuse, cfg⟩ m d c fun m =>
        (resample m, resAt 8 (cfg.smpExp.toNat + 2 ^ 8 * cfg.smpMask.toNat + 2 ^ 16 * bit cfg.smpDither))
      (if ok then { cfg with smpExp := BitVec.ofNat 5 ex, smpMask := BitVec.ofNat 2 mask, smpDither := dither == 1 } else cfg, m)

/-- PERF_USER_GRANT. -/
def execPerfUserGrant (d : Desc) (s : State) : Host.Outcome State Fault Refusal :=
  run s fun e m => whenAlive m fun m =>
    let p := descArg d 8 1
    let o := descArg d 9 1
    command e m d { opcode := 0x0903, badArg := decide (2 ≤ p) || decide (2 ≤ o) || !descOnly d [(8, 2)] } fun m =>
      let old := rd e m rUserGrant
      (wr e m rUserGrant (setFld old p 1 o), resAt 8 (fld old p 1))

end Sys2Proof.Machine
end

