-- ==== Sys2Proof/Machine/Regs.lean ====
section
/-!
DEFINITION. Register accesses (chapters 18 and 19): what a direct read does besides returning its value, what a write changes, the ring
and holding windows and the doorbells, and the one operation that carries out an access of any path in any window.
-/

namespace Sys2Proof.Machine

open Sys2Proof

/-! ### Captures and latches (R782, R838, R864, R865) -/

def latchKey (p : Path) (k : Nat) : Nat := p.n * 1024 + k
def M.latchOf (m : M) (p : Path) (k : Nat) : Option (BitVec 16) := Tab.get (fun _ => none) m.acc.latch (latchKey p k)
def setLatch (m : M) (p : Path) (k : Nat) (v : Option (BitVec 16)) : M :=
  m.setAcc fun a => { a with latch := Tab.put (fun _ => none) a.latch (latchKey p k) v }
def selKey (p : Path) (n : Nat) : Nat := p.n * 64 + n
def M.selOf (m : M) (p : Path) (n : Nat) : Word := Tab.get (fun _ => 0) m.acc.selVal (selKey p n)
/-- A selector is written, which discards the path's capture. -/
def setSel (m : M) (p : Path) (n : Nat) (v : Word) : M :=
  m.setAcc fun a => { a with
    selVal := Tab.put (fun _ => 0) a.selVal (selKey p n) v, selCap := Tab.put (fun _ => []) a.selCap (selKey p n) [] }
def setCap (m : M) (p : Path) (n : Nat) (ws : List Word) : M :=
  m.setAcc fun a => { a with selCap := Tab.put (fun _ => []) a.selCap (selKey p n) ws }

/-- One word of a slice array as a selector sees it: a correctable error is corrected, written back and logged, an uncorrectable word
reads as ones and stays as it is (R865); an error that passes unseen, or is corrected wrongly, leaves wrong content (R947). -/
def peekWord (e : Env) (m : M) (target x w : Nat) (v : BitVec 64) : M × BitVec 64 :=
  match m.coh.bad.find? fun b => b.target == target && b.slice == x && b.word == w with
  | none => (m, v)
  | some b =>
    let r := secded m.free b.mask
    let wrong := wrongBits m.free b.mask r
    let m := { flipWord m target x w wrong with free := m.free + 2 }
    if r = 2 then (m, BitVec.allOnes 64)
    else
      let m := m.setCoh fun c => { c with bad := c.bad.filter (· ≠ b) }
      if r = 1 then
        (log e (count e m x 0x16 1 none) 0x0501 x (BitVec.ofNat 32 (sramArray target)) (BitVec.ofNat 32 x) (BitVec.ofNat 64 w), v ^^^ wrong)
      else (m, v ^^^ wrong)
/-- The four words of a tag or directory entry. -/
def entryWords (a b : BitVec 64) : List Word := [a.setWidth 32, (a >>> 32).setWidth 32, b.setWidth 32, (b >>> 32).setWidth 32]
/-- Captures the tag entry that a path has selected. -/
def captureTag (e : Env) (m : M) (p : Path) (x : Nat) : M :=
  let v := m.selOf p (2 + x)
  let set := fld v 0 15
  if e.fuse.variant.sets ≤ set then setCap m p (2 + x) [0, 0, 0, 0]
  else
    let k := set * 16 + fld v 16 4
    let t := m.tagAt (x * 524288 + k)
    let (m, a) := peekWord e m 1 x (2 * k) t.sectors
    let (m, b) := peekWord e m 1 x (2 * k + 1) t.word1
    setCap m p (2 + x) (entryWords a b)
/-- Captures the directory entry that a path has selected. -/
def captureDir (e : Env) (m : M) (p : Path) (x : Nat) : M :=
  let v := m.selOf p (18 + x)
  let k := fld v 0 13 * 16 + fld v 16 4
  let d := m.dirAt (x * 131072 + k)
  let (m, a) := peekWord e m 2 x (2 * k) d.presence
  let (m, b) := peekWord e m 2 x (2 * k + 1) d.word1
  setCap m p (18 + x) (entryWords a b)
/-- The eight words of an entry of the log or the slip, 0 where there is none; an uncorrectable word reads as ones. -/
def logWords (m : M) (x : Option LogEntry) (index : Option Word) : List Word :=
  (List.range 8).map fun k =>
    match x with
    | none => 0
    | some x => if index.any (fun i => m.err.bad.contains (i, k / 2)) then 0xFFFFFFFF else x.word k
def captureLog (m : M) (p : Path) : M :=
  let i := m.selOf p 0
  setCap m p 0 (logWords m ((m.err.log.find? fun x => x.1 == i).map (·.2)) (some i))
def captureSlip (m : M) (p : Path) : M := setCap m p 1 (logWords m (slipEntry m (m.selOf p 1).toNat) none)

/-! ### Direct reads (Table 18.6, R841, R782, R864) -/

/-- A read of QUO_n (Table 18.8): a free quoin is acquired. -/
def readQuoin (m : M) (a : Acc) (q : Nat) : M × Word :=
  let x := m.quoin q
  if x.owner == 0 then (m.setQuoin q ⟨ownerId a, false, m.now⟩, if x.stale then 0x80000000 else 0)
  else (m, x.owner.setWidth 32)

/-- What a direct-window read of a register returns and does. -/
def readDirect (e : Env) (m : M) (a : Acc) (w : Nat) : M × Word :=
  let p := a.path
  let b := w / 0x1000
  let k := w % 0x1000
  if b = 3 then readQuoin m a k
  else if b = 6 ∧ 0xE ≤ k then
    let n := 512 + (k - 0xE) / 2
    if (k - 0xE) % 2 = 0 then (setLatch m p n (some ((rd e m (w + 1)).setWidth 16)), rd e m w)
    else
      match m.latchOf p n with
      | some v => (setLatch m p n none, v.setWidth 32)
      | none => (m, rd e m w)
  else if w = 0x4008 then (fun m => (m, regView e m p w)) (captureLog m p)
  else if w = 0x4010 then (fun m => (m, regView e m p w)) (captureSlip m p)
  else if 0x40 ≤ b ∧ k = 8 then (fun m => (m, regView e m p w)) (captureTag e m p (b - 0x40))
  else if 0x40 ≤ b ∧ k = 0xC then (fun m => (m, regView e m p w)) (captureDir e m p (b - 0x40))
  else
    match ctrReg w with
    | some (1, i, c) => (setLatch m p (i * 16 + c) (some ((m.ctr i c) >>> 32 |>.setWidth 16)), (m.ctr i c).setWidth 32)
    | some (2, i, c) =>
      match m.latchOf p (i * 16 + c) with
      | some v => (setLatch m p (i * 16 + c) none, v.setWidth 32)
      | none => (m, regView e m p w)
    | _ => (clearRc e m w, regView e m p w)

/-! ### Writes of single registers -/

/-- A quoin is released by its owner, who writes its own ID (R843). -/
def writeQuoin (m : M) (a : Acc) (q : Nat) (v : Word) : M :=
  let x := m.quoin q
  if x.owner == ownerId a && v == x.owner.setWidth 32 then m.setQuoin q .free else m
/-- A quoin that is held is released as an owner loss (R846). -/
def breakQuoin (m : M) (q : Nat) : M := if (m.quoin q).owner == 0 then m else m.setQuoin q ⟨0, true, 0⟩

/-- Fields of a register that keep their value when what is written lies outside `ok`. -/
def keepFld (old v : Word) (lo n : Nat) (ok : Nat → Bool) : Word := if ok (fld v lo n) then v else setFld v lo n (fld old lo n)

/-- The threshold of R357 is written (R360). -/
def setThreshold (e : Env) (m : M) (l : Lnk) (v : Nat) : M :=
  if v = 0 then m
  else
    let m := wr e m (rLinkCfg l) (setFld (rd e m (rLinkCfg l)) 0 12 v)
    if v ≤ (m.link l).winBad.length then linkDown e m l 1 else m
/-- The maximum width is written (Table 7.18); an ACTIVE link whose width it changes retrains (Table 7.14). -/
def setWidthMax (e : Env) (m : M) (l : Lnk) (v : Nat) : M :=
  if v = 0 || decide (groupCount l.allGroups < v) then m
  else
    let m := wr e m (rLinkCfg l) (setFld (rd e m (rLinkCfg l)) 12 2 v)
    let x := m.link l
    if x.st == .active && chooseGroups e m l (goodGroups (x.rxFailed ||| x.txFailed) x.common) != x.groups then enterRetrain e m l
    else m
/-- hold_down is written: a link that is held is DOWN (Table 7.13); on a fenced link it cannot be cleared (R438). -/
def writeHold (e : Env) (m : M) (l : Lnk) (b : Bool) : M :=
  if b then linkDown e (setHoldDown e m l true) l 0xC
  else if linkFenced e m l then m
  else setHoldDown e m l false
/-- A write of xxx_LINK_CFG (R362). -/
def writeLinkCfg (e : Env) (m : M) (l : Lnk) (v : Word) : M :=
  writeHold e (setWidthMax e (setThreshold e m l (fld v 0 12)) l (fld v 12 2)) l (v.getLsbD 14)

/-- A write of xxx_LANEm_TXEQ: a field above its fused limit stays, under guard 0x3 (R607, R873). -/
def writeTxeq (e : Env) (m : M) (l : Lnk) (w : Nat) (v : Word) : M :=
  [(0, 6), (6, 7), (13, 6)].foldl (fun m (lo, n) =>
    if fld e.fuse.linkLimit lo n < fld v lo n then guardBlock e m 3 l.n
    else wr e m w (setFld (rd e m w) lo n (fld v lo n))) m

/-- A write of xxx_PMC_CTLk: an event that the block does not list leaves the event field (R779). -/
def writeCtl (e : Env) (m : M) (i k w : Nat) (v : Word) : M :=
  if i < 16 ∧ 8 ≤ k then m
  else wr e m w (keepFld (rd e m w) (v &&& 0xFFFFFF) 0 16 (eventListed i))

/-- GLB_ISL_STOP_EN: a bit that goes from 1 to 0 wakes its island (R78). -/
def writeStopEn (e : Env) (m : M) (v : Word) : M :=
  let old := rd e m rStopEn
  let new := v &&& 0x3FFEFFFF
  (List.range 32).foldl (fun m i => if old.getLsbD i && !new.getLsbD i then wakeIsland e m i else m) (wr e m rStopEn new)

/-- GLB_JPC_CTL: each bit acts where 1 is written (Table 12.13). -/
def writeJpcCtl (e : Env) (m : M) (v : Word) : M :=
  let m := if v.getLsbD 0 then restartJpc e m 2 else m
  if v.getLsbD 1 then haltJpc e m 2 else m

/-- A setting that `Cfg` holds is written: the command applies it when it ends. -/
def writeSetting (m : M) (w : Nat) (v : Word) : M := { m with settings := m.settings ++ [(w, v)] }

/-- Clears every bin of the histogram (R869). -/
def clearBins (m : M) : M := { m with regs := Tab.drop (fun w => decide (0x600E ≤ w) && decide (w < 0x606E)) m.regs }

/-! ### Doorbells and rings (R563 to R574, Table 12.1, Table 12.2) -/

/-- The requester as RING_FOREIGN names it: the link, 5 SMBus, 6 JTAG; for the Jupor controller the specification gives no value. -/
def foreignCode (m : M) (p : Path) : Word :=
  match p with
  | .hpa => 0 | .hpb => 1 | .smbus => 5 | .jtag => 6 | .jpc => Config.freeWord m.free
def ringForeign (e : Env) (m : M) (a : Acc) (r : Nat) : M :=
  log e { m with free := m.free + 1 } 0x0705 srcJpc (BitVec.ofNat 32 r) (foreignCode m a.path) 0
/-- The path that posts to a ring or takes from it, and whether its doorbell gives the tail. -/
def ringUser (r : Nat) : Option (Path × Bool) :=
  match r with
  | 0 | 1 => some (.hpa, true)
  | 2 | 3 | 4 => some (.hpa, false)
  | 5 | 6 => some (.hpb, true)
  | 7 | 8 | 9 => some (.hpb, false)
  | 10 => some (.smbus, true)
  | 11 | 12 => some (.smbus, false)
  | 38 => some (.jtag, true)
  | 39 => some (.jtag, false)
  | _ => none
/-- Whether a path may write the slots of a ring: the rows of Table 12.2 that name slot writes. -/
def slotWriter (r : Nat) (p : Path) : Bool :=
  match r with
  | 0 | 1 => p == .hpa
  | 5 | 6 => p == .hpb
  | 10 | 11 | 12 => p == .smbus
  | 38 | 39 => p == .jtag
  | _ => false
/-- Whether a path may read the slots of a ring; the privilege has been judged. -/
def slotReader (r : Nat) (p : Path) : Bool :=
  match r with
  | 10 | 11 | 12 => p == .smbus
  | 38 | 39 => p == .jtag
  | _ => p != .jpc

/-- Events wait no longer once the host has left room: EVT_LOST goes first (R586). -/
def lostEvents (e : Env) (m : M) (r : Nat) : M :=
  let n := Tab.get (fun _ => 0) m.jpc.evtDrops r
  if n = 0 || decide (m.ringFree r < 2) then m
  else
    postRing e.fuse.variant (m.setJpc fun j => { j with evtDrops := Tab.put (fun _ => 0) j.evtDrops r 0 }) r 4 0 0 0 0 0
      (BitVec.ofNat 352 n)
/-- Responses that waited for room on DBG_OUT are posted (R579). -/
def flushDbg (v : Variant) (m : M) : M :=
  let n := m.ringFree 39
  let now := m.jpc.dbgWait.take n
  now.foldl (fun m x => pushRing v m 39 x) (m.setJpc fun j => { j with dbgWait := j.dbgWait.drop n })

/-- A write of MBX_DBELLr (R565). -/
def doorbell (e : Env) (m : M) (a : Acc) (r : Nat) (value : Word) : M :=
  if ringAbsent e.fuse.variant r then m
  else
    match ringUser r with
    | none => ringForeign e m a r
    | some (p, tail) =>
      let n := 2 * ringDepth r
      let v := fld value 0 16
      let used := m.ringUsed r
      let ahead := (v + n - (m.head r).toNat) % n
      if p != a.path then ringForeign e m a r
      else if tail then
        if n ≤ v || decide (ahead < used) || decide (ringDepth r < ahead) then
          log e m 0x0704 srcJpc (BitVec.ofNat 32 r) value 0
        else
          let m := if a.priv then m
            else (List.range (ahead - used)).foldl
              (fun m k => setUnpriv m r (((m.tail r).toNat + k) % ringDepth r) true) m
          m.setTail r (BitVec.ofNat 16 v)
      else if n ≤ v || decide (used < ahead) then log e m 0x0704 srcJpc (BitVec.ofNat 32 r) value 0
      else flushDbg e.fuse.variant (lostEvents e (m.setHead r (BitVec.ofNat 16 v)) r)

/-- A write into ring storage. -/
def writeRing (e : Env) (m : M) (a : Acc) (r k : Nat) (v : Word) : M :=
  if ringAbsent e.fuse.variant r then m
  else if !slotWriter r a.path then ringForeign e m a r
  else if ringDepth r * ringWords r ≤ k then m
  else
    let m := m.putRing r k v
    if a.priv then m else setUnpriv m r (k / ringWords r) true
/-- A read of ring storage. -/
def readRing (e : Env) (m : M) (a : Acc) (r k : Nat) : Word :=
  if ringAbsent e.fuse.variant r || !slotReader r a.path || decide (ringDepth r * ringWords r ≤ k) then 0 else m.getRing r k

/-! ### Direct writes (Table 18.6, R824 to R826) -/

/-- Registers of access code RWG (Tables 12.13, 12.16, 18.10, 2.8, 19.2). -/
def isRwg (w : Nat) : Bool :=
  w = rJpcCtl || w = rStopEn || (13 ≤ w && w ≤ 15) || w = rCeil || w = rMemWinCtl || w = rQuoinMax || (0x7008 ≤ w && w ≤ 0x700F)
/-- Registers of access code WO, and the quoins: a bit-alias write does nothing to them (R824, R843). -/
def noAlias (w : Nat) : Bool := w = 18 || (0x2080 ≤ w && w < 0x3000) || (0x3000 ≤ w && w < 0x4000) || w = 0x6000 || w = 0x9000

/-- A write of the blocks GLB to JPC, by word index. -/
def writeCentral (e : Env) (m : M) (a : Acc) (w : Nat) (v : Word) : M :=
  let p := a.path
  let b := w / 0x1000
  let k := w % 0x1000
  if w = 3 then writeJpcCtl e m v
  else if w = 8 then writeStopEn e m v
  else if w = 12 then writeSetting m w v
  else if w = 13 then wr e m w (v &&& 1)
  else if w = 14 ∨ w = 15 ∨ w = 19 ∨ w = 20 then wr e m w v
  else if w = 18 then (if v.getLsbD 8 then breakQuoin m (fld v 0 6) else m)
  else if b = 2 then (if 0x80 ≤ k then doorbell e m a (k - 0x80) v else m)
  else if b = 3 then writeQuoin m a k v
  else if w = 0x4002 then wr e m w (v &&& 0xFFF)
  else if w = 0x4006 then setSel m p 0 v
  else if w = 0x4007 then setSel m p 1 (v &&& 7)
  else if w = 0x5004 then
    let old := rd e m w
    let v := keepFld old (v &&& 0x3FFFFFF) 0 10 fun x => 1 ≤ x && x ≤ 1000
    let v := keepFld old v 10 7 fun x => 1 ≤ x && x ≤ 100
    wr e m w (keepFld old v 18 7 fun x => 1 ≤ x && x ≤ 100)
  else if w = 0x6000 then (if v.getLsbD 0 then startWalk m else m)
  else if w = 0x6003 then wr e m w (v &&& 3)
  else if w = 0x6004 then resample (writeSetting m w v)
  else if w = 0x6009 then
    let s := fld v 0 4
    if 3 ≤ s ∧ s ≤ 10 ∧ s ≠ e.cfg.histShift.toNat then clearBins (writeSetting m w v) else m
  else if b = 6 ∧ 0xE ≤ k then
    if (k - 0xE) % 2 = 0 then wr e (wr e m w v) (w + 1) 0 else wr e m w (v &&& 0xFFFF)
  else if w = 0x7000 then wr e m w (v &&& 0x3FF)
  else if w = 0x7001 then wr e m w (v &&& 0xFF)
  else if w = 0x7002 then (if fld v 0 16 = 0 then m else wr e m w (v &&& 0xFFFF))
  else if 0x7008 ≤ w ∧ w ≤ 0x700F then wr e m w v
  else if w = 0x8004 then setSel m p 40 v
  else if w = 0x8005 then setSel m p 41 (v &&& 0xFFFFF)
  else if w = 0x9000 then m.setJpc fun j => { j with wdogTick := m.now }
  else m

/-- A write of a link, channel or slice block. -/
def writeUnit (e : Env) (m : M) (a : Acc) (w : Nat) (v : Word) : M :=
  let b := w / 0x1000
  let k := w % 0x1000
  match blockLink b with
  | some l =>
    if k = 1 then writeLinkCfg e m l v
    else if 0x40 ≤ k ∧ k < 0x40 + 8 * l.lanes then
      if (k - 0x40) % 8 = 0 then writeTxeq e m l w v
      else if (k - 0x40) % 8 = 6 then wr e (if holdDown e m l then endPrbs e m l [(k - 0x40) / 8] else m) w (v &&& 3)
      else m
    else if l = .ckl ∧ k = 0x81 then wr e m w (v &&& 1)
    else m
  | none =>
    if 0x20 ≤ b ∧ b < 0x28 then
      if 0xC ≤ k ∧ k ≤ 0xF ∧ (m.dac (b - 0x20)).st = .reset then
        if k = 0xC then (if 5 ≤ fld v 0 3 then m else wr e m w (v &&& 0x7FFFFFF))
        else wr e m w (v &&& (if k = 0xD then 0xFFFFFFF else if k = 0xE then 0x3FFFFFF else 0xFFFFFFFF))
      else m
    else if 0x40 ≤ b ∧ k = 5 then setSel m a.path (2 + (b - 0x40)) (v &&& 0xF7FFF)
    else if 0x40 ≤ b ∧ k = 6 then setSel m a.path (18 + (b - 0x40)) (v &&& 0xF1FFF)
    else m

/-- A write that reaches its register. -/
def writeReg (e : Env) (m : M) (a : Acc) (w : Nat) (v : Word) : M :=
  if isRwg w && a.path == .jtag then m
  else if isRwg w && a.path == .jpc then guardBlock e m 2 5
  else
    match ctrReg w with
    | some (0, i, k) => writeCtl e m i k w v
    | some (1, i, k) => m.setCtr i k (v.setWidth 48)
    | some (2, i, k) => m.setCtr i k (((m.ctr i k).setWidth 32).setWidth 48 ||| ((v.setWidth 16).setWidth 48 <<< 32))
    | some (_, _, _) => m
    | none => if w < 0x10000 ∧ w / 0x1000 ≠ 0xA then writeCentral e m a w v else writeUnit e m a w v

/-- A write of one bit through its alias word (R828, R829). -/
def writeAlias (e : Env) (m : M) (a : Acc) (w b : Nat) (v : Word) : M :=
  if noAlias w then m
  else if w = rJpcCtl then writeReg e m a w (if v.getLsbD 0 then (1 : Word) <<< b else 0)
  else writeReg e m a w (setFld (regView e m a.path w) b 1 (bit (v.getLsbD 0)))

/-! ### One access (R807 to R834) -/

/-- How an access ends. -/
inductive AccEnd where
  | done | abandoned | denied
  deriving DecidableEq, Repr

/-- An access that is carried out in island `i`: abandoned where the island or the XBR does not answer (Table 2.7), otherwise `f` on
the woken island. -/
def inIsland (e : Env) (m : M) (i : Nat) (addr : Word) (f : M → M × Word) : M × AccEnd :=
  let dead : Bool := i ≠ 31 && (m.isl.clkFail.getLsbD i || (i ≠ 16 && m.isl.clkFail.getLsbD 16))
  if dead then ((abandon e m i addr).setAcc fun x => { x with readData := 0xFFFFFFFF }, .abandoned)
  else
    let (m, v) := f (wakeIsland e m i)
    (m.setAcc fun x => { x with readData := v }, .done)
/-- An access that returns `v` and does nothing else. -/
def plainEnd (m : M) (v : Word) : M × AccEnd := (m.setAcc fun x => { x with readData := v }, .done)

/-- One register access by one path; a read leaves its word in `readData`. -/
def access (e : Env) (m : M) (a : Acc) (addr : Word) (write : Bool) (value : Word) : M × AccEnd :=
  let t := target addr
  if !allowed e m a t write then (m, .denied)
  else
    match t with
    | .direct w _ =>
      if regAbsent e.fuse.variant w then plainEnd m 0
      else inIsland e m (regIsland w) addr fun m => if write then (writeReg e m a w value, 0) else readDirect e m a w
    | .mirror w _ => plainEnd m (if write then 0 else mirrorRead e m w)
    | .alias_ w b _ =>
      if regAbsent e.fuse.variant w then plainEnd m 0
      else inIsland e m (regIsland w) addr fun m =>
        if write then (writeAlias e m a w b value, 0) else (m, BitVec.ofNat 32 (bit ((regView e m a.path w).getLsbD b)))
    | .ring r k =>
      inIsland e m 30 addr fun m => if write then (writeRing e m a r k value, 0) else (m, readRing e m a r k)
    | .holding s k =>
      inIsland e m 16 addr fun m => (m, if write then 0 else Tab.get (fun _ => 0) m.prf.holding (s * 1024 + k))
    | .nothing => plainEnd m 0

/-- Whether a path can make accesses now: a host link that is ACTIVE, SMBus and JTAG from the end of phase 1 (R929, R937), the Jupor
controller while it is not held in reset. -/
def pathUp (m : M) (p : Path) : Bool :=
  match p with
  | .hpa => (m.link .hpa).st == .active
  | .hpb => (m.link .hpb).st == .active
  | .smbus | .jtag => 2 ≤ m.boot.phase || m.boot.relock
  | .jpc => m.jpc.fw != .halted

/-- The settings that a command has written, applied with the rules of their fields (R229, R230, R806, R869). -/
def applySetting (f : Fuses) (c : Cfg) (x : Nat × Word) : Cfg :=
  let v := x.2
  if x.1 = 12 then
    if !f.variant.far then c
    else
      let old := c.appPolicy.setWidth 32
      { c with appPolicy := (keepFld old (keepFld old v 0 2 (· ≠ 3)) 2 2 (· ≠ 3)).setWidth 6 }
  else if x.1 = 0x6004 then
    { c with
      smpExp := if 4 ≤ fld v 0 5 ∧ fld v 0 5 ≤ 20 then BitVec.ofNat 5 (fld v 0 5) else c.smpExp
      smpMask := if fld v 5 2 = 0 then c.smpMask else BitVec.ofNat 2 (fld v 5 2)
      smpDither := v.getLsbD 7 }
  else if x.1 = 0x6009 then
    { c with histShift := if 3 ≤ fld v 0 4 ∧ fld v 0 4 ≤ 10 then BitVec.ofNat 4 (fld v 0 4) else c.histShift }
  else c

/-- A command that may write settings: `f`, and then the settings it has written. -/
def runSettings (s : State) (f : Env → M → M) : Host.Outcome State Fault Refusal :=
  runCfg s fun fuse cfg m =>
    if !m.alive then (cfg, m)
    else
      let m := f ⟨fuse, cfg⟩ m
      (m.settings.foldl (applySetting fuse) cfg, { m with settings := [] })

/-- A command that is one access of a path. -/
def accessRow (s : State) (a : Acc) (addr : Word) (write : Bool) (value : Word) : Host.Outcome State Fault Refusal :=
  runSettings s fun e m => if pathUp m a.path then (access e m a addr write value).1 else m
/-- A write that may set something going: links, the Jupor controller, requests that were held. -/
def writeRow (s : State) (a : Acc) (addr value : Word) : Host.Outcome State Fault Refusal :=
  runSettings s fun e m => if pathUp m a.path then fin e (access e m a addr true value).1 else m
/-- The direct-window address of a register. -/
def regAddr (w : Nat) : Word := BitVec.ofNat 32 (4 * w)

end Sys2Proof.Machine
end

