-- ==== Sys2Proof/Machine/Access.lean ====
section
/-!
DEFINITION. The commands that are register accesses: in-band, over SMBus and JTAG, and the single registers that the table names.
-/

namespace Sys2Proof.Machine

open Sys2Proof

/-! ### In-band (R387 to R393, R807) -/

/-- The requester of a configuration request. -/
def reqAcc (r : Req) : Acc := ⟨match r.port with | .hpa => .hpa | .hpb => .hpb, r.agent, r.priv⟩

/-- Serves CFG_RD: DATA with the value in bytes 0 to 3 and `abandoned` in byte 4 (Table 8.5). -/
def serveRead (e : Env) (addr : Word) (m : M) (r : Req) : M :=
  match access e m (reqAcc r) addr false 0 with
  | (m, .denied) => portErr e m r 0x11
  | (m, x) => respondCfg e m r.port r.tag
      (.data r.tag false 1 (BitVec.ofNat 1024 (m.acc.readData.toNat + bit (x == .abandoned) * 2 ^ 32))) r.silent
/-- Serves CFG_WR: CMP, or ERR CFG_ABANDONED (R391). -/
def serveWrite (e : Env) (addr data : Word) (m : M) (r : Req) : M :=
  match access e m (reqAcc r) addr true data with
  | (m, .denied) => portErr e m r 0x11
  | (m, .abandoned) => portErr e m r 0x12
  | (m, .done) => respondCfg e m r.port r.tag (.cmp r.tag false) r.silent

/-- The header of a configuration request that a port holds. -/
def Req.hdr (r : Req) : ReqHdr := ⟨r.port, r.tag, r.agent, false, r.priv, 0, r.line, r.opf⟩
/-- Serves the configuration requests that hold queues have released, those of each port in order (R276, R390). -/
def serveReady (e : Env) (m : M) : M :=
  [HPort.hpa, .hpb].foldl (fun m p =>
    (m.port p).cfgReady.foldl (fun m r =>
      if r.op == .cfgRd then serveRead e r.hdr.cfgAddr m r else serveWrite e r.hdr.cfgAddr r.hdr.cfgData m r)
      (m.setPort p { m.port p with cfgReady := [] })) m

/-- What a step does on an empty queue: one AON tick passes, and the configuration requests that hold queues have released are served; in
reset and in manufacturing test it does nothing (log entry 10). -/
def idle (s : State) : Host.Outcome State Fault Refusal :=
  if s.m.pins.testSampled then .next s
  else
    runSettings s fun e m =>
      let m := elapse e m 1
      if (m.port .hpa).cfgReady.isEmpty && (m.port .hpb).cfgReady.isEmpty then m else fin e (serveReady e m)

def execCfgRd (h : ReqHdr) (s : State) : Host.Outcome State Fault Refusal :=
  runSettings s fun e m =>
    fin e (delivered e (serveReady e m) h.port.lnk 0 0 fun m => request e m h .cfgRd 0 0 (serveRead e h.cfgAddr))
def execCfgWr (h : ReqHdr) (s : State) : Host.Outcome State Fault Refusal :=
  runSettings s fun e m =>
    fin e (delivered e (serveReady e m) h.port.lnk 0 0 fun m => request e m h .cfgWr 0 0 (serveWrite e h.cfgAddr h.cfgData))

/-! ### SMBus (R812 to R815) -/

def smbAcc : Acc := { path := .smbus }

/-- REG_READ.  With a wrong byte count nothing is accessed, and the specification gives no data (Table 18.4, log entry 39). -/
def execSmbusRegRead (addr : Word) (count : Nat) (s : State) : Host.Outcome State Fault Refusal :=
  runSettings s fun e m =>
    if !pathUp m .smbus then m
    else if count ≠ 4 then
      { m.setAcc fun a => { a with smbRead := 2, smbData := Config.freeWord m.free } with free := m.free + 1 }
    else
      let (m, x) := access e m smbAcc addr false 0
      fin e (m.setAcc fun a => { a with smbRead := BitVec.ofNat 8 (bit (x == .abandoned)), smbData := a.readData })
/-- REG_WRITE; a PEC byte that does not check discards the write (R814). -/
def execSmbusRegWrite (addr data : Word) (count : Nat) (pecOk : Bool) (s : State) : Host.Outcome State Fault Refusal :=
  runSettings s fun e m =>
    if !pathUp m .smbus || !pecOk then m
    else if count ≠ 8 then m.setAcc fun a => { a with smbStatus := 2 }
    else
      let (m, x) := access e m smbAcc addr true data
      fin e (m.setAcc fun a => { a with smbStatus := BitVec.ofNat 8 (bit (x == .abandoned)) })
/-- LAST_STATUS returns the status byte of the last REG_WRITE. -/
def execSmbusLastStatus (s : State) : Host.Outcome State Fault Refusal :=
  run s fun _ m => whenAlive m fun m =>
    if pathUp m .smbus then m.setAcc fun a => { a with readData := a.smbStatus.setWidth 32 } else m
/-- SMBCLK has been low for 30 ms (R815): SMBus loses its quoins (R846). -/
def execSmbusTimeout (s : State) : Host.Outcome State Fault Refusal :=
  run s fun e m => whenAlive m fun m => loseQuoins (elapse e m 1500000) fun o => ownerPath o = 3

/-! ### JTAG (R816, R817, R937) -/

/-- An Update-DR of REG_ACCESS.  Before the end of phase 1 the access completes as abandoned; the TAP works in every reset (R932). -/
def execJtagRegAccess (dr : BitVec 66) (s : State) : Host.Outcome State Fault Refusal :=
  if !s.m.alive then
    run s fun _ m =>
      let m := m.setAcc fun a => { a with tapIr := 0x20 }
      if !dr.getLsbD 65 || !m.acc.jtagDone then m else showAbandoned m .jtag (dr.getLsbD 64) (dr.setWidth 32)
  else
  runSettings s fun e m =>
    let m := m.setAcc fun a => { a with tapIr := 0x20 }
    let addr : Word := dr.setWidth 32
    let write := dr.getLsbD 64
    if !dr.getLsbD 65 || !m.acc.jtagDone then m
    else if !pathUp m .jtag then showAbandoned m .jtag write addr
    else
      let (m, x) := access e m { path := .jtag } addr write (dr.extractLsb' 32 32)
      fin e (m.setAcc fun a => { a with
        jtagAddr := addr, jtagDone := true, jtagAbandoned := x == .abandoned, jtagData := if write then a.jtagData else a.readData })

/-! ### Quoins (R839 to R850) -/

def execQuoRead (a : Acc) (q : Fin 64) (s : State) : Host.Outcome State Fault Refusal :=
  accessRow s a (regAddr (0x3000 + q)) false 0
def execQuoWrite (a : Acc) (q : Fin 64) (value : Word) (s : State) : Host.Outcome State Fault Refusal :=
  accessRow s a (regAddr (0x3000 + q)) true value
def execQuoBreak (a : Acc) (value : Word) (s : State) : Host.Outcome State Fault Refusal :=
  accessRow s a (regAddr 18) true value
/-- A hold of the Jupor firmware reaches GRD_QUOIN_MAX (R844). -/
def execQuoinHoldLimit (q : Fin 64) (s : State) : Host.Outcome State Fault Refusal :=
  run s fun e m => whenAlive m fun m =>
    if ownerPath (m.quoin q).owner ≠ 5 then m
    else
      let m := elapseTo e m ((m.quoin q).since + 50 * fld (rd e m rQuoinMax) 0 16)
      guardBlock e (breakQuoin m q) 5 6

/-! ### Doorbells, the Jupor controller, snapshots -/

def execMbxDoorbell (a : Acc) (ring : Fin 40) (value : Word) (s : State) : Host.Outcome State Fault Refusal :=
  accessRow s a (regAddr (0x2080 + ring)) true value
def execJpcCtlRestart (a : Acc) (s : State) : Host.Outcome State Fault Refusal := writeRow s a (regAddr rJpcCtl) 1
def execJpcCtlHalt (a : Acc) (s : State) : Host.Outcome State Fault Refusal := writeRow s a (regAddr rJpcCtl) 2
def execPrfSnapStart (a : Acc) (s : State) : Host.Outcome State Fault Refusal := accessRow s a (regAddr 0x6000) true 1

/-! ### Counters (R782, R783) -/

/-- The register of a counter: 1 its low word, 2 its high word. -/
def ctrWord (c : CtrId) (part : Nat) : Option Nat :=
  match ctrGroup c.island with
  | some (b, p, k) => if c.k.val < k then some (b + p + part * k + c.k.val) else none
  | none => none
def ctrRow (s : State) (a : Acc) (c : CtrId) (part : Nat) (write : Bool) (value : Word) : Host.Outcome State Fault Refusal :=
  match ctrWord c part with
  | some w => accessRow s a (regAddr w) write value
  | none => run s fun _ m => m
def execPmcLoRead (a : Acc) (c : CtrId) (s : State) : Host.Outcome State Fault Refusal := ctrRow s a c 1 false 0
def execPmcHiRead (a : Acc) (c : CtrId) (s : State) : Host.Outcome State Fault Refusal := ctrRow s a c 2 false 0
def execPmcLoWrite (a : Acc) (c : CtrId) (value : Word) (s : State) : Host.Outcome State Fault Refusal := ctrRow s a c 1 true value

/-! ### Registers with effects of their own -/

def execRcRegisterRead (a : Acc) (addr : Word) (s : State) : Host.Outcome State Fault Refusal := accessRow s a addr false 0
def execErrAlertRead (a : Acc) (s : State) : Host.Outcome State Fault Refusal := accessRow s a (regAddr rAlert) false 0
/-- The selector register and the first data register of a selector (R864). -/
def selWord : Sel → Nat
  | .log => 0x4006 | .slip => 0x4007 | .tag x => rSlc x 5 | .dir x => rSlc x 6
def selData0 : Sel → Nat
  | .log => 0x4008 | .slip => 0x4010 | .tag x => rSlc x 8 | .dir x => rSlc x 0xC
def execSelectorData0Read (a : Acc) (sel : Sel) (s : State) : Host.Outcome State Fault Refusal :=
  accessRow s a (regAddr (selData0 sel)) false 0
def execSelectorWrite (a : Acc) (sel : Sel) (value : Word) (s : State) : Host.Outcome State Fault Refusal :=
  accessRow s a (regAddr (selWord sel)) true value
def execImposeResultRead (a : Acc) (aux : Bool) (s : State) : Host.Outcome State Fault Refusal :=
  accessRow s a (regAddr (if aux then 0x8007 else 0x8006)) false 0
def execHistShiftWrite (a : Acc) (value : Word) (s : State) : Host.Outcome State Fault Refusal :=
  accessRow s a (regAddr 0x6009) true value
def execDacTimingWrite (a : Acc) (d : Fin 8) (k : Fin 4) (value : Word) (s : State) : Host.Outcome State Fault Refusal :=
  accessRow s a (regAddr (rDac d (0xC + k))) true value
def execAppPolicyWrite (a : Acc) (value : Word) (s : State) : Host.Outcome State Fault Refusal := accessRow s a (regAddr 12) true value
def execMemportEquivWrite (a : Acc) (value : Word) (s : State) : Host.Outcome State Fault Refusal :=
  accessRow s a (regAddr rEquiv) true value
def execLinkCfgThresholdWrite (a : Acc) (l : Lnk) (value : Word) (s : State) : Host.Outcome State Fault Refusal :=
  writeRow s a (regAddr (rLinkCfg l)) value
def execLinkCfgHoldDownWrite (a : Acc) (l : Lnk) (value : Word) (s : State) : Host.Outcome State Fault Refusal :=
  writeRow s a (regAddr (rLinkCfg l)) value

/-! ### Windows -/

/-- A write in the bit-alias window; another address is none. -/
def execBitAliasWrite (a : Acc) (addr value : Word) (s : State) : Host.Outcome State Fault Refusal :=
  match target addr with
  | .alias_ _ _ _ => writeRow s a addr value
  | _ => run s fun _ m => m
/-- A read in the mirror window; another address is none. -/
def execMirrorWindowRead (a : Acc) (addr : Word) (s : State) : Host.Outcome State Fault Refusal :=
  match target addr with
  | .mirror _ _ => accessRow s a addr false 0
  | _ => run s fun _ m => m
/-- An access in the ring window; another address is none. -/
def execRingWindowAccess (a : Acc) (addr : Word) (write : Bool) (value : Word) (s : State) : Host.Outcome State Fault Refusal :=
  match target addr with
  | .ring _ _ => accessRow s a addr write value
  | _ => run s fun _ m => m
/-- A write of a register by any path, in any window. -/
def execRegWrite (a : Acc) (addr value : Word) (s : State) : Host.Outcome State Fault Refusal :=
  writeRow s a addr value

end Sys2Proof.Machine
end

