-- ==== Sys2Proof/Machine/Dac.lean ====
section
/-!
DEFINITION. The data-array channels (chapter 10): training, refresh, tracking, pin diagnosis, and the ECC commands.
-/

namespace Sys2Proof.Machine

open Sys2Proof

def dacPresent (e : Env) (d : Nat) : Bool := decide (d < e.fuse.variant.dacs)

/-! ### Training (R454, R455) -/

/-- The pins that failed in a step up to `k`. -/
def pinsUpTo (pins : List (Fin 40 × Fin 8)) (k : Nat) : Nat := (pins.filter fun x => decide (x.2.val ≤ k)).length
/-- The step in which a strobe or the seventh pin failed, if any. -/
def trainFailStep (r : TrainResult) : Option Nat :=
  [4, 5, 6, 7].find? fun k => r.strobe.any (·.val == k) || decide (7 ≤ pinsUpTo r.pins k)
/-- The pins of a training result as a mask. -/
def trainMask (pins : List (Fin 40 × Fin 8)) : BitVec 40 :=
  pins.foldl (fun x p => x ||| ((1 : BitVec 40) <<< p.1.val)) 0
/-- A channel fails in a training step. -/
def failTraining (e : Env) (m : M) (d step cause : Nat) : M :=
  failDac e (m.setDac d { m.dac d with stepDone := BitVec.ofNat 3 (step - 1), stepFailed := BitVec.ofNat 3 step }) d cause
/-- The end of a channel's training: FAILED, or ACTIVE with the failed pins marked. -/
def endTraining (e : Env) (m : M) (d : Nat) (r : TrainResult) : M :=
  if (m.dac d).st != .training then m
  else if r.failedStep.val ≠ 0 then failTraining e m d r.failedStep.val 1
  else
    let m := m.setDac d { m.dac d with trainFail := trainMask r.pins }
    match trainFailStep r with
    | some k => failTraining e m d k 2
    | none =>
      let m := r.pins.foldl (fun m p => markPin e m d p.1.val 1) m
      if (m.dac d).st == .failed then m else m.setDac d { m.dac d with st := .active, stepDone := 7 }
/-- DA_TRAINING: the channel of `d` runs the steps of Table 10.6 in bring-up phase 3. -/
def execDaTraining (d : Fin 8) (r : TrainResult) (s : State) : Host.Outcome State Fault Refusal :=
  act s fun e m =>
    if m.boot.phase ≠ 3 || m.boot.stopped || m.jpc.fw != .running || !dacPresent e d then m else endTraining e m d r

/-! ### Refresh and tracking (R456 to R460) -/

/-- REFRESH_DUE: one REFab, or the four REFsb of an interval; the rate and the kind chosen since the last refresh apply from here.  A
stopped channel is woken for it (R81); one in self-refresh or FAILED has no refresh (R496). -/
def execRefreshDue (d : Fin 8) (s : State) : Host.Outcome State Fault Refusal :=
  run s fun e m => whenAlive m fun m =>
    if !dacPresent e d || (m.dac d).st != .active || (m.dac d).sref then m
    else
      let m := wakeIsland e m (dacIsland d)
      let x := m.dac d
      let m := m.setDac d { x with rate2x := x.rateNext, sameBank := x.sameBankNext }
      count e m (dacIsland d) 6 (if x.sameBankNext then 4 else 1) none
/-- MR4_POLL: whether some component reports the doubled refresh rate; a changed rate applies from the next refresh. -/
def execMr4Poll (d : Fin 8) (doubled : Bool) (s : State) : Host.Outcome State Fault Refusal :=
  run s fun e m => whenAlive m fun m =>
    if !dacPresent e d || (m.dac d).st != .active || (m.dac d).sref then m
    else m.setDac d { m.dac d with rateNext := doubled }
/-- DQS_TRACKING: the write path is retimed from one read of the interval oscillators. -/
def execDqsTracking (d : Fin 8) (s : State) : Host.Outcome State Fault Refusal :=
  run s fun e m => whenAlive m fun m =>
    if !dacPresent e d || (m.dac d).st != .active || (m.dac d).sref then m
    else m.setDac d { m.dac d with tracked := true }

/-! ### Pin diagnosis (R757, R758) -/

/-- The pins that mismatch in two or more of the four patterns and are not marked. -/
def failedPins (marks : BitVec 40) (mismatch : List (BitVec 40)) : List Nat :=
  (List.range 40).filter fun k => !marks.getLsbD k && decide (2 ≤ (mismatch.filter (·.getLsbD k)).length)
/-- One diagnosis: the four patterns and the held data are written, and the pins found bad are marked. -/
def diagnose (e : Env) (m : M) (d a : Nat) (mismatch : List (BitVec 40)) : M :=
  let c := m.cw (d * 67108864 + a)
  let bad := failedPins (m.dac d).marks mismatch
  let m := (List.range 4).foldl (fun m _ => writeCw e m d a 0 false) m
  let m := count e m (dacIsland d) 1 4 none
  let m := if c.written then writeCw e m d a c.data c.poison else m.setCw (d * 67108864 + a) c
  let m := count e m (dacIsland d) 9 1 none
  let m := m.setDac d { m.dac d with diag := none, diagEnd := some m.now }
  let m := bad.foldl (fun m k => markPin e m d k 2) m
  pushSfr e m (cwSlice e a) 4 0 0 bad.length a
/-- PIN_DIAGNOSIS: the diagnosis that a CORRECTED read has started ends. -/
def execPinDiagnosis (d : Fin 8) (mismatch : List (BitVec 40)) (s : State) : Host.Outcome State Fault Refusal :=
  act s fun e m =>
    match (m.dac d).diag with
    | none => m
    | some a => diagnose e m d a.toNat mismatch

/-! ### The ECC commands (R682 to R684) -/

/-- Block code CHANNEL_STATE: the channel is FAILED or in training. -/
def channelBlocked (m : M) (d : Nat) : Bool := (m.dac d).st == .failed || (m.dac d).st == .training

/-- FRISKET_ARM. -/
def execFrisketArm (d : Desc) (s : State) : Host.Outcome State Fault Refusal :=
  run s fun e m => whenAlive m fun m =>
    let target := descArg d 8 1
    let i := descArg d 9 1
    let addr := BitVec.ofNat 26 (descArg d 12 4)
    let da := target == 0
    let mask : BitVec 72 := BitVec.ofNat 72 (if da then descArg d 16 5 else descArg d 16 9)
    let beats := if da then descArg d 22 2 else 0
    let f : Frisket := ⟨true, descArg d 10 1 == 1, addr, mask, BitVec.ofNat 16 beats⟩
    let bad := decide (5 ≤ target) || decide (2 ≤ descArg d 10 1) || mask == 0
      || (da && (decide (8 ≤ i) || beats == 0)) || (!da && target != 4 && decide (16 ≤ i)) || (target == 4 && i != 0)
      || decide ((if da then 2 ^ 26 else 2 ^ 24) ≤ descArg d 12 4)
      || !descOnly d (if da then [(8, 3), (12, 4), (16, 5), (22, 2)] else [(8, 3), (12, 4), (16, 9)])
    command e m d { opcode := 0x0E00, absent := da && i < 8 && !dacPresent e i, badArg := bad
                    blocks := if da && channelBlocked m i then [0xB] else [] } fun m =>
      (if da then m.setDac i { m.dac i with frisket := f }
       else if target = 4 then m.setErr fun r => { r with frisket := f }
       else m.setSlcFrisket target i f, 0)

/-- What the two PINMARK commands check and carry out; `f` gives the marks after the command. -/
def pinmark (e : Env) (m : M) (d : Desc) (opcode : Nat) (limit : Bool) (f : BitVec 40 → BitVec 40 → BitVec 40)
    (work : M → Nat → BitVec 40 → M) : M :=
  let n := descArg d 8 1
  let mask : BitVec 40 := BitVec.ofNat 40 (descArg d 12 5)
  let bad := decide (8 ≤ n) || mask == 0 || !descOnly d [(8, 1), (12, 5)]
  let tooMany := limit && decide (6 < popCount (f (m.dac n).marks mask))
  command e m d { opcode := opcode, absent := n < 8 && !dacPresent e n, badArg := bad
                  blocks := (if channelBlocked m n then [0xB] else []) ++ (if tooMany then [0xC] else []) } fun m =>
    let m := work m n mask
    (m, resAt 8 (m.dac n).marks.toNat)
/-- PINMARK_SET. -/
def execPinmarkSet (d : Desc) (s : State) : Host.Outcome State Fault Refusal :=
  run s fun e m => whenAlive m fun m =>
    pinmark e m d 0x0E01 true (· ||| ·) fun m n mask =>
      (List.range 40).foldl (fun m k => if mask.getLsbD k then markPin e m n k 3 else m) m
/-- PINMARK_CLEAR. -/
def execPinmarkClear (d : Desc) (s : State) : Host.Outcome State Fault Refusal :=
  run s fun e m => whenAlive m fun m =>
    pinmark e m d 0x0E02 false (fun a b => a &&& ~~~b) fun m n mask =>
      let x := m.dac n
      m.setDac n { x with
        marks := x.marks &&& ~~~mask
        markCause := (List.range 40).foldl (fun t k => if mask.getLsbD k then Tab.put (fun _ => 0) t k 0 else t) x.markCause }

end Sys2Proof.Machine
end

