-- ==== Sys2Proof/Machine/Pair.lean ====
section
/-!
DEFINITION. The commands of the twin pair (chapter 11): messages on the CKL, the timers of the pair states, beacons, and the mailbox
commands of the TWIN group.
-/

namespace Sys2Proof.Machine

open Sys2Proof

/-! ### Messages on the CKL (Table 11.2) -/

/-- A message that arrives on the CKL: nothing arrives while the link is not ACTIVE. -/
def cklRx (s : State) (cls slots : Nat) (f : Env → M → M) : Host.Outcome State Fault Refusal :=
  act s fun e m =>
    if !e.fuse.variant.ckl || (m.link .ckl).st != .active then m else delivered e m .ckl cls slots (f e)
/-- A CTL message: the firmware takes it from CKC_RX, where it waits while no firmware runs (R505, R567; log entry 41). -/
def ctlRx (s : State) (slots : Nat) (f : Env → M → M) : Host.Outcome State Fault Refusal :=
  act s fun e m =>
    if !e.fuse.variant.ckl || (m.link .ckl).st != .active || m.jpc.fw != .running then m
    else delivered e m .ckl 0 slots fun m => f e (passOpen m 14)
/-- A message for a slice wakes it (R78); one for a slice that is lost is held and never delivered (R765). -/
def toSlice (e : Env) (m : M) (l : Line) (f : M → M) : M :=
  if sliceDead m (sliceOf l) then m else f (wakeIsland e m (sliceOf l))

/-- PAIR_HELLO_RX: the twin's hello, which may come before this device's own attempt (R510; log entry 40). -/
def execPairHelloRx (h : Hello) (s : State) : Host.Outcome State Fault Refusal :=
  ctlRx s 1 fun e m => checkHellos e (m.setTwin fun t => { t with hello := some h })
/-- PAIR_REFUSE_RX: logged, and nothing further (R511).  Both devices of a refused pairing send one; the twin's is still logged when it
crosses this device's own refusal, whose hold_down has taken the link down (R510, log entry 68). -/
def execPairRefuseRx (reason : BitVec 4) (s : State) : Host.Outcome State Fault Refusal :=
  act s fun e m =>
    let crossing := (m.link .ckl).st == .down && holdDown e m .ckl && m.twin.lastRefusal != 0
      && m.twin.st != .hello && m.twin.st != .shed
    if !e.fuse.variant.ckl || m.jpc.fw != .running then m
    else if (m.link .ckl).st == .active then
      delivered e m .ckl 0 0 fun m => log e (passOpen m 14) 0x0602 srcCkl (reason.setWidth 32) 0 0
    else if crossing then log e (passOpen m 14) 0x0602 srcCkl (reason.setWidth 32) 0 0
    else m
/-- SHED_DONE_RX (R514). -/
def execShedDoneRx (_ctlSeq : Tag) (s : State) : Host.Outcome State Fault Refusal :=
  ctlRx s 0 fun e m => if m.twin.st == .shed then tryCommit e (m.setTwin fun t => { t with shedSeen := true }) else m
/-- PAIR_COMMIT_RX: the junior enters PAIRED (R514, R515). -/
def execPairCommitRx (_ctlSeq : Tag) (s : State) : Host.Outcome State Fault Refusal :=
  ctlRx s 0 fun e m => if m.twin.st == .shed && !m.twin.senior then enterPaired e m else m

/-- The twin hands its side over (R551). -/
def takeHalf (e : Env) (m : M) : M :=
  let m := (discardMirrors e m).1
  let m := (tagList m).foldl (fun m kv =>
    let t := kv.2
    let held := (List.range 32).filter fun k => t.sector k == 3 && ownSide m (keyLine kv k)
    if held.isEmpty then m
    else
      let m := putTag e m kv.1 (held.foldl (fun t k => t.setSector k 2) (m.tagAt kv.1))
      m.setMir fun r => { r with promoted := r.promoted ++ (held.map (keyLine kv)).filter fun l => !r.promoted.contains l }) m
  let m := m.setTwin fun t => { t with st := .adopted, rebuildPending := false, catchup := 0 }
  let m := sendFailover e m true (!m.pins.pairSide)
  let m := sendCtl e (writeWaiting e m) .releaseAck
  clearPairDrain e m
/-- RELEASE_HALF_RX. -/
def execReleaseHalfRx (_ctlSeq : Tag) (s : State) : Host.Outcome State Fault Refusal :=
  ctlRx s 0 fun e m => if m.twin.st == .paired then takeHalf e m else m
/-- RELEASE_ACK_RX: the releasing device enters DEPOSED (R552). -/
def execReleaseAckRx (_ctlSeq : Tag) (s : State) : Host.Outcome State Fault Refusal :=
  ctlRx s 0 fun e m =>
    if m.twin.st == .releasing && m.twin.shedSent then
      let cmd := m.mir.relCmd
      finishCmd e ((depose e m).setMir fun r => { r with relCmd := 0 }) cmd 0 0
    else m

/-! ### The holder's side (R524, R527, R531) -/

/-- A MIR-class message has arrived (Table 17.5). -/
def mirIn (e : Env) (m : M) (answered : Bool) : M :=
  let m := count e m 29 5 1 none
  if answered then m.setMir fun r => { r with received := r.received + 1 } else m
/-- MIR_WRITE_RX. -/
def execMirWriteRx (mtag : Tag) (poison : Bool) (mem : MPort) (full : Bool) (line : Line) (mask : Mask) (data : Data) (s : State) :
    Host.Outcome State Fault Refusal :=
  cklRx s 1 (if full then 8 else 1 + ((List.range 8).filter fun k => mask.extractLsb' (16 * k) 16 != 0).length) fun e m =>
    toSlice e (mirIn e m true) line fun m => holdMirror e m ⟨mtag, poison, mem, full, line, mask, data⟩
/-- MIR_RELEASE_RX: the sector becomes Invalid (R527). -/
def execMirReleaseRx (line : Line) (s : State) : Host.Outcome State Fault Refusal :=
  cklRx s 1 0 fun e m => toSlice e (mirIn e m false) line fun m =>
    let m := tagCheck e m line
    if (findTag e m line true).isSome then setSector e m line true 0 else m
/-- MIR_FETCH_RX. -/
def execMirFetchRx (mtag : Tag) (line : Line) (s : State) : Host.Outcome State Fault Refusal :=
  cklRx s 1 0 fun e m => toSlice e (mirIn e m true) line fun m => fetchMirror e (tagCheck e m line) mtag line

/-! ### The primary's side (R60, R504, R525, R531, R742) -/

/-- An ACK-class message; one whose mtag names nothing outstanding is discarded as STRAY_RSP (R504). -/
def ackRx (s : State) (mtag : Tag) (opcode slots : Nat) (f : Env → M → MirOut → M) : Host.Outcome State Fault Refusal :=
  cklRx s 2 slots fun e m =>
    let m := count e m 29 7 1 none
    match takeAnswer m mtag with
    | none => violate e m .ckl 0x14 none mtag opcode true true
    | some (m, o) => if sliceDead m (sliceOf o.line) then m else f e (wakeIsland e m (sliceOf o.line)) o
/-- The newest version of a line is acknowledged by the twin (R60, R126, R523). -/
def mirAcked (e : Env) (m : M) (o : MirOut) : M :=
  let l := o.line
  let newest := newestOf m l o.mtag
  let m := m.updG l fun g => { g with
    mirWait := g.mirWait && g.vers != some o.mtag, mirFirst := g.mirFirst && g.vers != some o.mtag
    waiters := g.waiters.map fun w => if w.mtag == some o.mtag then { w with mtag := none } else w }
  let m := if newest then newVersion m l else m
  let bare : Bool := match m.galleyOf l with
    | some g => g.kind == .victim
    | none => true
  let m := if newest && bare && sectorOf e m l = 2 then
      (if m.modeBit mMirror then setSector e m l false 3 else mirRelease e m l)
    else m
  flushRelease e (finishG e m l) l
/-- A MIR_FETCH is answered MIR_LOST; the primary sends the whole line again where it still holds it (Table 11.8). -/
def fetchAnswerLost (e : Env) (m : M) (l : Line) : M :=
  let m := fetchLost e m l
  if sectorOf e m l = 3 && !dacDown e m l then sendWhole (setSector e m l false 2) l else m
/-- The action of Table 11.7 on a MIR_NAK for the newest version. -/
def nakAction (e : Env) (m : M) (l : Line) (reason : Nat) : M :=
  let again (m : M) : M := m.setMir fun r => { r with resend := if r.resend.contains l then r.resend else r.resend ++ [l] }
  match reason with
  | 0 =>
    match findTag e m l false with
    | none => again m
    | some f =>
      match quotaVictim e m l f with
      | none => cleanForMirror e m l
      | some w =>
        let k := tagKey e.fuse.variant l w
        let t := m.tagAt k
        let dirty := ((List.range 32).filter fun j => decide (2 ≤ t.sector j)).map (keyLine (k, t))
        let m := m.setMir fun r => { r with quotaWait := r.quotaWait ++ [(l, dirty)] }
        dirty.foldl (fun m x => cleanLine e m x []) m
  | 1 => m.setMir fun r => { r with busyRetry := r.busyRetry ++ [(l, m.now)] }
  | 2 => sendWhole m l
  | _ => cleanForMirror e m l

/-- MIR_ACK_RX. -/
def execMirAckRx (mtag : Tag) (s : State) : Host.Outcome State Fault Refusal :=
  ackRx s mtag 0x50 0 fun e m o => if o.fetch then fetchAnswerLost e m o.line else mirAcked e m o
/-- MIR_NAK_RX. -/
def execMirNakRx (mtag : Tag) (reason : BitVec 2) (s : State) : Host.Outcome State Fault Refusal :=
  ackRx s mtag 0x51 0 fun e m o =>
    let m := bump e m (rMirNak + reason.toNat) 1
    if o.fetch then fetchAnswerLost e m o.line
    else
      let m := count e m (sliceOf o.line) 0x14 1 none
      notAcked e m o.line o.mtag false fun m => nakAction e m o.line reason.toNat
/-- MIR_NAK_BUSY_RETRY: 1 µs after a MIR_NAK BUSY the MIR_WRITE is sent again. -/
def execMirNakBusyRetry (line : Line) (s : State) : Host.Outcome State Fault Refusal :=
  act s fun e m =>
    match m.mir.busyRetry.find? fun x => x.1 == line with
    | none => m
    | some x =>
      (elapseTo e m (x.2 + 50)).setMir fun r => { r with
        busyRetry := r.busyRetry.erase x, resend := if r.resend.contains line then r.resend else r.resend ++ [line] }
/-- MIR_DATA_RX: a fetched line is served and rewritten, or completes the entry that waits for it (Table 11.8). -/
def execMirDataRx (mtag : Tag) (poison : Bool) (data : Data) (s : State) : Host.Outcome State Fault Refusal :=
  ackRx s mtag 0x52 8 fun e m o =>
    let l := o.line
    if !o.fetch then notAcked e m l o.mtag true fun m => sendWhole m l
    else
      let waits : Bool := match m.txnOf l with
        | some t => t.phase == .mirFetch
        | none => false
      if waits then
        let m := match findTag e m l false with
          | some w => if sectorOf e m l = 0 then m else writeLineArray e m l w data poison
          | none => m
        let (d, p) := overGalley m l data poison
        dataReady e m l d p
      else
        let held : Bool := (m.galleyOf l).isSome || m.coh.staging.any fun g => g.line == l
        match findTag e m l false with
        | some w =>
          -- a patrol read asked for it: the array alone is rewritten
          if !held && 2 ≤ sectorOf e m l then writeLineArray e m l w data poison else loadEntry e m l data poison
        | none => loadEntry e m l data poison
/-- MIR_LOST_RX: an answer, or unprompted with mtag 0 (R742, Table 11.8). -/
def execMirLostRx (mtag : Tag) (line : Line) (s : State) : Host.Outcome State Fault Refusal :=
  if mtag == 0 then
    cklRx s 2 0 fun e m =>
      let m := bump e (count e m 29 7 1 none) rMirLost 1
      toSlice e m line fun m =>
        if sectorOf e m line ≠ 3 || m.mir.outstanding.any (fun o => o.line == line && !o.fetch) then m
        else
          let m := countNak (setSector e m line false 2) line true
          if 4 ≤ nakCount m line true then cleanForMirror e m line else sendWhole m line
  else
    ackRx s mtag 0x53 0 fun e m o =>
      let l := o.line
      let m := bump e m rMirLost 1
      if o.fetch then fetchAnswerLost e m l
      else notAcked e m l o.mtag true fun m => sendWhole (if sectorOf e m l = 3 then setSector e m l false 2 else m) l

/-! ### Beacons and failure detection (R398, R399, R532 to R534, R544, R546) -/

/-- BEACON_SEND: the beacon of one interval, on each host port that is ACTIVE and has the credits for it. -/
def execBeaconSend (s : State) : Host.Outcome State Fault Refusal :=
  act s fun e m =>
    let due := !m.twin.solo || m.twin.st == .hello || m.twin.st == .shed || m.twin.st == .adopted || m.twin.st == .deposed
    if !due || !e.fuse.variant.ckl then m
    else
      let b : Msg := .beacon (myBeacon e m)
      let m := [Lnk.hpa, .hpb].foldl (fun m l =>
        if m.txOn && (m.link l).txq.isEmpty && (m.link l).canSend [b] then transmit e m l [b] else m) m
      m.setMir fun r => { r with beaconSeq := r.beaconSeq + 1 }
/-- CKL_LOST: the CKL has not been ACTIVE for 200 µs without a break. -/
def execCklLost (s : State) : Host.Outcome State Fault Refusal :=
  act s fun e m =>
    if (m.twin.st != .paired && m.twin.st != .releasing) || (m.link .ckl).st == .active then m
    else declareLost e (elapseTo e m ((m.link .ckl).inactive + 10000))
/-- BEACON_LOST: 60 µs without an accepted beacon, in PAIRED or in SPLIT. -/
def execBeaconLost (s : State) : Host.Outcome State Fault Refusal :=
  act s fun e m =>
    let m := match m.mir.heard with
      | some t => if m.twin.st == .paired || m.twin.st == .split then elapseTo e m (t + 3000) else m
      | none => m
    if m.twin.st == .paired then
      (if m.twin.beaconLost then m
       else log e (m.setTwin fun t => { t with beaconLost := true }) 0x0605 srcCkl (BitVec.ofNat 32 m.twin.st.n) 0 0)
    else if m.twin.st == .split then
      let m := m.setTwin fun t => { t with beaconLost := true }
      if m.twin.noRelay then m else log e (m.setTwin fun t => { t with noRelay := true }) 0x0609 srcCkl 0 0 0
    else m
/-- SUSPECT_EVAL: the evaluation of one AON tick. -/
def execSuspectEval (s : State) : Host.Outcome State Fault Refusal :=
  act s fun e m => if m.twin.st == .suspect then suspectEval e (elapse e m 1) else m
/-- ISOLATED_PORT_ACTIVE: from here the twin's beacon is awaited for 60 µs. -/
def execIsolatedPortActive (p : HPort) (s : State) : Host.Outcome State Fault Refusal :=
  act s fun _ m =>
    if m.twin.st == .isolated && portUp m p && m.mir.isolatedSince.isNone then
      m.setMir fun r => { r with isolatedSince := some m.now }
    else m
/-- ISOLATED_NO_BEACON: no beacon within 60 µs of a host port reaching ACTIVE. -/
def execIsolatedNoBeacon (s : State) : Host.Outcome State Fault Refusal :=
  act s fun e m =>
    match m.mir.isolatedSince with
    | some t =>
      if m.twin.st == .isolated && (portUp m .hpa || portUp m .hpb) then adopt e (elapseTo e m (t + 3000)) else m
    | none => m
/-- DRAIN_DONE_OWN (R542). -/
def execDrainDoneOwn (s : State) : Host.Outcome State Fault Refusal :=
  act s fun _ m =>
    if m.twin.st == .split && drainClean m then m.setTwin fun t => { t with drainOwn := true } else m
/-- SHED_PHASE2: no Dirty line of the side given up remains (R513, R550). -/
def execShedPhase2 (s : State) : Host.Outcome State Fault Refusal := act s fun e m => startPhase2 e m
/-- PAIR_ATTEMPT_LIMIT: HELLO has lasted for the limit (R516). -/
def execPairAttemptLimit (s : State) : Host.Outcome State Fault Refusal :=
  act s fun e m =>
    if m.twin.st == .hello then abandonAttempt e (elapseTo e m (m.twin.attemptStart + m.twin.attemptLimit)) 3 else m
/-- SWEEP_PROGRESS: a sweep of a slice has reached its last set. -/
def execSweepProgress (x : Fin 16) (kind : SweepKind) (s : State) : Host.Outcome State Fault Refusal :=
  act s fun _ m => m.setCoh fun c => { c with sweeps := c.sweeps.filter fun y => y != (x.val, kind) }

/-! ### The TWIN group (R650 to R654) -/

/-- PAIR_START (R509, R651). -/
def execPairStart (d : Desc) (s : State) : Host.Outcome State Fault Refusal :=
  act s fun e m =>
    let limit := descArg d 8 4
    let legal := m.twin.st == .unpaired || m.twin.st == .adopted || m.twin.st == .deposed
      || (m.twin.st == .split && m.twin.drainOwn && m.twin.drainTwin)
    commandLater e m d {
        opcode := 0x0600, absent := !e.fuse.variant.ckl
        badArg := (limit != 0 && (decide (limit < 10) || decide (10000 < limit))) || !descOnly d [(8, 4)]
        blocks := if linkFenced e m .ckl then [9] else if legal then [] else [8] }
      0 0 0 (fun _ => 0) fun m id => startAttempt e m id (if limit = 0 then 500 else limit)
/-- PAIR_STATUS. -/
def execPairStatus (d : Desc) (s : State) : Host.Outcome State Fault Refusal :=
  run s fun e m => whenAlive m fun m =>
    command e m d { opcode := 0x0601, any := true, early := true, absent := !e.fuse.variant.ckl, badArg := !descOnly d [] } fun m =>
      let since := match m.mir.heard with
        | some t => min ((m.now - t) / 50) 0xFFFFFFFF
        | none => 0xFFFFFFFF
      (m, resAt 8 (pairStat m).toNat ||| resAt 12 m.mir.serial.toNat ||| resAt 28 ((m.mir.sent - m.mir.answered) % 65536)
        ||| resAt 30 ((m.mir.received - m.mir.replied) % 65536) ||| resAt 32 since ||| resAt 36 (m.link .ckl).st.n
        ||| resAt 37 (bit m.pins.pairSide))
/-- PAIR_RELEASE (R550). -/
def execPairRelease (d : Desc) (s : State) : Host.Outcome State Fault Refusal :=
  act s fun e m =>
    commandLater e m d { opcode := 0x0602, absent := !e.fuse.variant.ckl, badArg := !descOnly d []
                         blocks := if m.twin.st == .paired then [] else [8] } 0 0 0 (fun _ => 0) fun m id =>
      startShed e ((m.setTwin fun t => { t with st := .releasing, catchup := 0 }).setMir fun r => { r with relCmd := id })
/-- ADOPT of kind REBUILT (R539, R653). -/
def execAdoptRebuilt (d : Desc) (s : State) : Host.Outcome State Fault Refusal :=
  act s fun e m =>
    command e m d { opcode := 0x0603, absent := !e.fuse.variant.ckl, badArg := descArg d 8 1 != 1 || !descOnly d [(8, 1)]
                    blocks := if m.twin.st == .adopted && m.twin.rebuildPending then [] else [8] } fun m =>
      (m.setTwin fun t => { t with rebuildPending := false }, 0)
/-- ADOPT of kind FORCE (R540, R654). -/
def execAdoptForce (d : Desc) (s : State) : Host.Outcome State Fault Refusal :=
  act s fun e m =>
    let split := m.twin.st == .split
    command e m d { opcode := 0x0603, absent := !e.fuse.variant.ckl, badArg := descArg d 8 1 != 2 || !descOnly d [(8, 1)]
                    blocks := if m.twin.st == .suspect || split || m.twin.st == .isolated then [] else [8] } fun m =>
      if split then
        let (m, n) := discardMirrors e m
        (adopt e (log e m 0x060A srcCkl (BitVec.ofNat 32 n) 0 0), resAt 8 n)
      else (adopt e m, 0)
/-- MIRROR_POLICY (R556). -/
def execMirrorPolicy (d : Desc) (s : State) : Host.Outcome State Fault Refusal :=
  run s fun e m => whenAlive m fun m =>
    let scope := descArg d 8 1
    command e m d { opcode := 0x0604, absent := !e.fuse.variant.ckl, badArg := decide (2 ≤ scope) || !descOnly d [(8, 1)] } fun m =>
      (wr e m rScope (BitVec.ofNat 32 scope), resAt 8 (fld (rd e m rScope) 0 1))

end Sys2Proof.Machine
end

