-- ==== Sys2Proof/Machine/Ink.lean ====
section
/-!
DEFINITION. The ink budget (chapter 15): measurement, the settlement of an epoch, the plan, the hardware ceiling, the thermal
thresholds, the firmware's policy for the islands, and the work of the background tasks of the ports and slices.
-/

namespace Sys2Proof.Machine

open Sys2Proof

/-! ### Measurement (R705 to R709) -/

/-- The ticks of an epoch. -/
def epochTicks : Nat := 50000
/-- The open epoch's first tick (R702, R703). -/
def M.epochStart (m : M) : Nat := m.ink.epoch * epochTicks

/-- The seven rail readings of one sample in mW: for a rail in fault the estimator's value stands, which is open (log entry 31). -/
def railValue (m : M) (rails : List Nat) (k : Nat) : Nat :=
  if m.ink.sensorFault.getLsbD k then (Config.freeWord (m.free + k)).toNat else rails.getD k 0

/-- INK_SAMPLE: the energy of one µs, which at 1 mW is 0.001 ink, and the estimates (R705, R706). -/
def execInkSample (rails : List Nat) (est : Nat) (estTask : List Nat) (s : State) : Host.Outcome State Fault Refusal :=
  run s fun e m => whenAlive m fun m =>
    let m := elapseTo e m (m.ink.sampleTick + 50)
    let sum := (List.range 7).foldl (fun n k => n + railValue m rails k) 0
    let m := m.setInk fun i => { i with
      sampleTick := m.now, meas := i.meas + sum, est := i.est + est, estTask := listAdd i.estTask estTask }
    { m with free := m.free + 7 }

/-- INK_SENSOR_FAULT: a rail without a good sample for 10 µs; the replacement lasts until cold reset (R709). -/
def execInkSensorFault (rail : Fin 7) (s : State) : Host.Outcome State Fault Refusal :=
  run s fun e m => whenAlive m fun m =>
    if m.ink.sensorFault.getLsbD rail then m
    else
      log e (m.setInk fun i => { i with sensorFault := i.sensorFault ||| ((1 : BitVec 7) <<< rail.val) }) 0x0801 31
        (BitVec.ofNat 32 rail) 0 0

/-- k * est[t] of R707, in 0.001 ink. -/
def attributed (meas est t : Nat) : Nat :=
  if 2 * meas ≤ est then t / 2 else if 2 * est ≤ meas then 2 * t else meas * t / est

/-! ### The settlement (R710 to R713) -/

/-- The first loop of close_epoch: overspend uses the carry, oldest first. -/
def useCarry : List Nat → Int → List Nat × Int
  | [], left => ([], left)
  | c :: cs, left =>
    if 0 ≤ left then (c :: cs, left)
    else
      let t := min c (-left).toNat
      let (rest, out) := useCarry cs (left + t)
      ((c - t) :: rest, out)

/-- The carry after close_epoch (R712). -/
def closeCarry (grant floor fg bg : Nat) (carry : List Nat) (cap : Bool) : List Nat :=
  let (carry, left) := useCarry carry ((grant : Int) - (max floor fg : Nat) - bg)
  if cap then carry.drop 1 ++ [left.toNat] else [0, 0, 0, 0]

def listSum (xs : List Nat) : Nat := xs.foldl (· + ·) 0
/-- Writes consecutive registers. -/
def wrList (e : Env) (m : M) (w : Nat) (xs : List Nat) : M :=
  (List.range xs.length).foldl (fun m k => wr e m (w + k) (BitVec.ofNat 32 (xs.getD k 0))) m

/-- The end of the open epoch: attribution, settlement, and the registers of the last complete epoch (R707, R712, R866). -/
def closeEpoch (e : Env) (m : M) (f : EpochFacts) : M :=
  let i := m.ink
  let meas := i.meas + f.meas
  let bgs := (listAdd i.estTask f.estTask).map fun t => attributed meas (i.est + f.est) t / 1000
  let bg := listSum bgs
  let fg := meas / 1000 - bg
  let cap := m.modeBit mInkCap
  let carry := closeCarry e.cfg.grant.toNat e.cfg.floor.toNat fg bg i.carry cap
  let m := wrList e m 0x5005 [i.epoch % 2 ^ 32, i.epoch / 2 ^ 32, meas / 1000, fg, bg, i.ceilUs]
  let m := wrList e m 0x5016 i.used
  let m := wrList e m 0x5022 ((List.range 7).map (railValue m f.rails))
  let m := { m with free := m.free + 7 }
  let m := m.setInk fun i => { i with
    epoch := i.epoch + 1, carry := carry, fgLast := fg
    quota := [0, 0, 0, 0, 0, 0], used := [0, 0, 0, 0, 0, 0], deferred := [0, 0, 0, 0, 0, 0]
    last := ⟨listSum carry, e.cfg.grant.toNat, e.cfg.floor.toNat, cap, bgs, i.quota, i.deferred⟩
    planned := false, planMissing := false, ceilUs := 0, meas := 0, est := 0, estTask := [0, 0, 0, 0, 0, 0] }
  m.setMode fun x => { x with settling := x.settling &&& ~~~0x20 }

/-- EPOCH_BOUNDARY: the grant and the floor commanded before it apply from here (R710). -/
def execEpochBoundary (f : EpochFacts) (s : State) : Host.Outcome State Fault Refusal :=
  runCfg s fun fuse cfg m =>
    if !m.alive then (cfg, m)
    else
      let e : Env := ⟨fuse, cfg⟩
      ({ cfg with grant := cfg.grantNext, floor := cfg.floorNext },
        closeEpoch e (elapseTo e m (m.epochStart + epochTicks)) f)

/-! ### The plan (R714 to R721) -/

/-- The chunks of one task that the room `l` admits, and the room left: each cost is that of the next chunk. -/
def admitChunks : List Nat → Int → Nat × Int
  | [], l => (0, l)
  | c :: cs, l =>
    if (c : Int) ≤ l then
      let (n, out) := admitChunks cs (l - c)
      (n + 1, out)
    else (0, l)

/-- The costs of what each task asks for, in the order of Table 15.2; `proof` are those of the proof steps. -/
def planCosts (d : PlanDemand) (proof : List Nat) : List (List Nat) :=
  let patrol (x : List Bool) : List Nat := x.map fun da => if da then 10 else 2
  [List.replicate d.drain 15, List.replicate d.catchup 16, patrol d.behind, proof, patrol d.onTime, List.replicate d.smoothing 15]
/-- The largest chunks of each task in an epoch (Table 15.2). -/
def maxChunks (t n : Nat) : Nat := match t with | 0 => 488 | 1 => 366 | 3 => n | _ => 122
/-- The quotas, one task after the other. -/
def planTasks : Nat → List (List Nat) → Int → List Nat
  | _, [], _ => []
  | t, cs :: rest, l =>
    let (n, out) := admitChunks (cs.take (maxChunks t cs.length)) l
    n :: planTasks (t + 1) rest out
/-- The room of plan_epoch. -/
def planRoom (e : Env) (m : M) : Int :=
  let reserve : Int := (max e.cfg.floor.toNat m.ink.fgLast : Nat)
  let l : Int := (effCeil e m * 250 : Nat) - reserve
  if m.modeBit mInkCap then min l ((e.cfg.grant.toNat + listSum m.ink.carry : Nat) - reserve) else l

/-- PLAN_MISSING: 100 µs of the epoch have passed without a plan. -/
def execPlanMissing (s : State) : Host.Outcome State Fault Refusal :=
  run s fun e m => whenAlive m fun m =>
    if m.ink.planned then m
    else (elapseTo e m (m.epochStart + 5000)).setInk fun i => { i with planMissing := true }

/-- A task engine issues a chunk while the open epoch's quota has one left (R718). -/
def takeQuota (m : M) (t : Nat) : Option M :=
  if m.ink.used.getD t 0 < m.ink.quota.getD t 0 then
    some (m.setInk fun i => { i with used := i.used.set t (i.used.getD t 0 + 1) })
  else none

/-- The lines that the Drain task may write back: those of DRAIN, of FLUSH_RANGE and of promotion (Table 15.1), and those of a shed's
first phase (R513). -/
def drainWork (m : M) (l : Line) : Bool :=
  (m.modeBit mDrain && primaryFor m l) || (m.jpc.accepted.any fun a => a.opcode == 0x0400 && a.todo.contains l)
    || m.mir.promoted.contains l || (m.twin.shedPhase == 1 && shedding m l)
/-- Writes back the Dirty lines among `lines` that `f` allows and that no write takes out of Dirty already. -/
def cleanAll (e : Env) (m : M) (lines : List Line) (f : M → Line → Bool) : M :=
  lines.foldl (fun m l => if 2 ≤ sectorOf e m l && f m l && !writingBack m l then cleanLine e m l [] else m) m

/-- DRAIN_TASK_CHUNK: 64 KiB of the drain, ordered by the firmware on the DRAIN ring. -/
def execDrainTaskChunk (lines : List Line) (s : State) : Host.Outcome State Fault Refusal :=
  act s fun e m =>
    if m.jpc.fw != .running then m
    else
      match takeQuota m 0 with
      | none => m
      | some m => cleanAll e (passOpen m 21) (lines.take 512) drainWork

/-- MIRROR_CATCHUP_CHUNK: 64 KiB of a slice's catch-up pass (R528). -/
def execMirrorCatchupChunk (x : Fin 16) (lines : List Line) (s : State) : Host.Outcome State Fault Refusal :=
  act s fun e m =>
    if m.twin.st != .paired || !m.twin.catchup.getLsbD x || sliceDead m x then m
    else
      match takeQuota m 1 with
      | none => m
      | some m =>
        let left := catchupLeft e m x
        let m := openLookups e m x
        let m := ((lines.take 512).filter fun l => left.contains l).foldl sendWhole m
        if (catchupLeft e m x).isEmpty then
          m.setTwin fun t => { t with catchup := t.catchup &&& ~~~((1 : BitVec 16) <<< x.val) }
        else m

/-- WRITEBACK_SMOOTHING_CHUNK: Dirty sectors of folios at age 7 that the device serves as primary (R715). -/
def execWritebackSmoothingChunk (x : Fin 16) (lines : List Line) (s : State) : Host.Outcome State Fault Refusal :=
  act s fun e m =>
    if !m.modeBit mRetain || m.modeBit mDrain || !(rd e m rInkPolicy).getLsbD 25 || sliceDead m x then m
    else
      match takeQuota m 5 with
      | none => m
      | some m => cleanAll e m (lines.take 512) fun m l =>
          sliceOf l == x.val && primaryFor m l && (m.galleyOf l).isNone && !(m.coh.staging.any fun g => g.line == l)
            && match findTag e m l false with
              | some w => (m.tagAt (tagKey e.fuse.variant l w)).age == 7
              | none => false

/-! ### The hardware ceiling (R724 to R730) -/

/-- CEIL_BUCKET_REFILL: one µs of the ceiling controller.  What the issues of the µs have taken, and what the next one needs, is open
(log entry 31); while the bucket holds less, issues are held. -/
def execCeilBucketRefill (staticEnergy : Nat) (s : State) : Host.Outcome State Fault Refusal :=
  run s fun e m => whenAlive m fun m =>
    let m := elapseTo e m (m.ink.refillTick + 50)
    let c := effCeil e m * 250
    let full := min (20 * c) (m.ink.bucket + c - staticEnergy)
    let left := full - Config.issueEnergy m.free
    let limiting := decide (left < Config.issueEnergy (m.free + 1))
    let m := m.setInk fun i => { i with
      bucket := left, refillTick := m.now, ceilLimiting := limiting, ceilUs := i.ceilUs + bit limiting }
    { m with free := m.free + 2 }

/-- CEIL_UNMET: the power of a 50 µs window is more than 3 % above the ceiling with issue held to its least rate (R729). -/
def execCeilUnmet (powerQw : Nat) (s : State) : Host.Outcome State Fault Refusal :=
  run s fun e m => whenAlive m fun m =>
    if powerQw * 100 ≤ effCeil e m * 103 || !m.ink.ceilLimiting then m
    else log e (wr e m rCeilUnmet (rd e m rCeilUnmet ||| 8)) 0x0802 31 (BitVec.ofNat 32 powerQw) 0 0

/-! ### Thermal thresholds (R731 to R733) -/

/-- GRD_POWER_CEIL as R608 reads it. -/
def guardCeil (e : Env) (m : M) : Nat := min (max (fld (rd e m rCeil) 0 10) 240) e.fuse.powerFuse.toNat

/-- THERMAL_SAMPLE: the die temperature, every 100 µs (Table 15.4). -/
def execThermalSample (temp : BitVec 8) (s : State) : Host.Outcome State Fault Refusal :=
  run s fun e m => whenAlive m fun m =>
    let m := elapseTo e m (m.ink.thermTick + 5000)
    let m := m.setInk fun i => { i with temp := temp, thermTick := m.now }
    let a0 : Word := temp.signExtend 32
    let m := if 100 ≤ temp.toInt then
        (if m.ink.warn then m else log e (m.setInk fun i => { i with warn := true }) 0x0803 31 a0 0 0)
      else if temp.toInt < 97 then m.setInk fun i => { i with warn := false }
      else m
    if 105 ≤ temp.toInt && !m.ink.throttle then
      let start := min (guardCeil e m) ((rd e m 0x5007).toNat / 250) - 20
      log e (m.setInk fun i => { i with throttle := true, thermCeil := some start, throttleTick := m.now }) 0x0804 31 a0 0 0
    else m

/-- THROTTLE_STEP: each ms of throttle moves the thermal ceiling by 5 W, or ends it (R732). -/
def execThrottleStep (s : State) : Host.Outcome State Fault Refusal :=
  run s fun e m => whenAlive m fun m =>
    match m.ink.thermCeil with
    | none => m
    | some c =>
      let m := elapseTo e m (m.ink.throttleTick + 50000)
      let m := m.setInk fun i => { i with throttleTick := m.now }
      if 105 ≤ m.ink.temp.toInt then m.setInk fun i => { i with thermCeil := some (if c ≤ 240 then c else max (c - 20) 240) }
      else if m.ink.temp.toInt < 103 then
        (if guardCeil e m ≤ c + 20 then m.setInk fun i => { i with thermCeil := none, throttle := false }
         else m.setInk fun i => { i with thermCeil := some (c + 20) })
      else m

/-- THERMAL_TRIP: the comparator trips at 115 °C, and every island is held in reset until cold reset (R733). -/
def execThermalTrip (temp : BitVec 8) (s : State) : Host.Outcome State Fault Refusal :=
  run s fun e m => whenAlive m fun m =>
    if temp.toInt < 115 then m
    else
      let m := m.setInk fun i => { i with temp := temp }
      let m := log e m 0x0805 31 (temp.signExtend 32) 0 0
      let m := m.setPins fun p => { p with thermtrip := true, ready := false }
      m.setBoot fun b => { b with txStopped := true }

/-! ### The firmware's policy for the islands (R722, Table 15.3) -/

/-- Whether a port or the CKL meets its row: hold_down set and DOWN for 1 ms. -/
def linkIdle (e : Env) (m : M) (i : Nat) : Bool :=
  match (if i = 29 then some Lnk.ckl else blockLink (0x10 + (i - 17))) with
  | some l => holdDown e m l && (m.link l).st == .down && decide ((m.link l).since + 50000 ≤ m.now)
  | none => false
/-- Whether a stopped DAC's components enter self-refresh (R82). -/
def srefDue (e : Env) (m : M) (d : Nat) : Bool :=
  (m.modeBit mDrain || m.modeBit mQuiesce) && dacPresent e d && (m.dac d).st == .active && !m.island (dacIsland d)
    && match (m.dac d).stoppedAt with
      | some t => decide (t + 50000 ≤ m.now)
      | none => false

/-- ISLAND_POLICY_CHECK: at an epoch boundary, or 100 µs after the last check. -/
def execIslandPolicyCheck (f : PolicyFacts) (s : State) : Host.Outcome State Fault Refusal :=
  run s fun e m => whenAlive m fun m =>
    if m.jpc.fw != .running then m
    else
      let m := if f.epochEdge then m else elapseTo e m (m.ink.policyTick + 5000)
      let m := m.setInk fun i => { i with policyTick := m.now }
      let m := (List.range 30).foldl (fun m i =>
        let wanted := if (17 ≤ i && i ≤ 20) || i == 29 then linkIdle e m i else f.idle.getLsbD i
        if wanted && canStop e m i && !m.isl.waking.getLsbD i then stopIsland e m i else m) m
      let m := (List.range 8).foldl (fun m d => if srefDue e m d then m.setDac d { m.dac d with sref := true } else m) m
      if !f.epochEdge then m
      else
        let div : BitVec 16 := if m.modeBit mInkCap && (rd e m rInkPolicy).getLsbD 17 then f.divide else 0
        let changed : Word := (m.isl.div2 ^^^ div).setWidth 32
        let m := (List.range 16).foldl (fun m x => if changed.getLsbD x then spanCycles m x else m) m
        let m := m.setIsl fun x => { x with div2 := div, excluded := x.excluded ||| changed }
        (List.range e.fuse.variant.dacs).foldl (fun m d =>
          m.setDac d { m.dac d with sameBankNext := f.sameBank.getLsbD d }) m

/-! ### The INK group (R655, R656) -/

/-- What INK_GRANT and INK_FLOOR share; the values commanded last are the current ones (log entry 62). -/
def inkSetting (s : State) (d : Desc) (opcode : Nat) (bad : Cfg → Nat → Bool) (old : Cfg → Nat) (put : Cfg → Nat → Cfg) :
    Host.Outcome State Fault Refusal :=
  runCfg s fun fuse cfg m =>
    if !m.alive then (cfg, m)
    else
      let v := descArg d 8 4
      let c : Cmd := { opcode := opcode, badArg := decide (190000 < v) || bad cfg v || !descOnly d [(8, 4)] }
      let ok := served m d c && (refusal m d c (privileged m d)).isNone
      (if ok then put cfg v else cfg, command ⟨fuse, cfg⟩ m d c fun m => (m, resAt 8 (old cfg)))

def execInkGrant (d : Desc) (s : State) : Host.Outcome State Fault Refusal :=
  inkSetting s d 0x0700 (fun cfg v => v == 0 || decide (v < cfg.floorNext.toNat)) (·.grantNext.toNat)
    fun cfg v => { cfg with grantNext := BitVec.ofNat 18 v }
def execInkFloor (d : Desc) (s : State) : Host.Outcome State Fault Refusal :=
  inkSetting s d 0x0701 (fun cfg v => decide (cfg.grantNext.toNat < v)) (·.floorNext.toNat)
    fun cfg v => { cfg with floorNext := BitVec.ofNat 18 v }

/-- INK_REPORT: the last complete epoch. -/
def execInkReport (d : Desc) (s : State) : Host.Outcome State Fault Refusal :=
  run s fun e m => whenAlive m fun m =>
    command e m d { opcode := 0x0702, any := true, badArg := !descOnly d [] } fun m =>
      let r (w : Nat) : Nat := (rd e m w).toNat
      let l := m.ink.last
      (m, resAt 8 (r 0x5005 + r 0x5006 * 2 ^ 32) ||| resAt 16 (r 0x5007) ||| resAt 20 (r 0x5008) ||| resAt 24 (r 0x5009)
        ||| resAt 28 l.balance ||| resAt 32 l.grant ||| resAt 36 l.floor ||| resAt 40 (r 0x500A)
        ||| resAt 44 (bit l.cap + 2 * bit (decide (r 0x5007 < 40000))))

/-- One record of INK_PLAN_QUERY for the tasks of the given orders. -/
def planRecord (l : InkLast) (ts : List Nat) : Nat :=
  let sum (xs : List Nat) : Nat := listSum (ts.map fun t => xs.getD t 0)
  sum l.cost % 2 ^ 32 + min (sum l.quota) 0xFFFF * 2 ^ 32 + min (sum l.deferred) 0xFFFF * 2 ^ 48
/-- INK_PLAN_QUERY. -/
def execInkPlanQuery (d : Desc) (s : State) : Host.Outcome State Fault Refusal :=
  run s fun e m => whenAlive m fun m =>
    command e m d { opcode := 0x0703, any := true, badArg := !descOnly d [] } fun m =>
      let l := m.ink.last
      (m, resAt 8 (planRecord l [2, 4]) ||| resAt 16 (planRecord l [3]) ||| resAt 24 (planRecord l [0])
        ||| resAt 32 (planRecord l [1]) ||| resAt 40 (planRecord l [5]))

end Sys2Proof.Machine
end

