-- ==== Sys2Proof/Machine/Proof.lean ====
section
/-!
DEFINITION. Proof and patrol (chapter 16): the proof items and their runs, the evacuation of ways, the tests and what their faults leave,
the patrol passes, and the commands of the PATROL and PROOF group.
-/

namespace Sys2Proof.Machine

open Sys2Proof

/-! ### Proof items (Table 16.1, R735, R736) -/

/-- Steps, number of units, group and offline mark of an item: groups 0 to 2 are those of R736, 3 is a DAC. -/
structure ItemInfo where
  steps : Nat
  units : Nat
  group : Nat
  offline : Bool

def itemInfo (v : Variant) (item : Nat) : Option ItemInfo :=
  match item with
  | 1 | 2 => some ⟨v.sets / 256, 256, 0, false⟩
  | 3 => some ⟨32, 256, 1, false⟩
  | 4 | 5 => some ⟨1, 16, 2, false⟩
  | 0x101 => some ⟨1, 16, 2, true⟩
  | 0x102 => some ⟨1, 8, 3, true⟩
  | _ => none
def itemOffline (item : Nat) : Bool := item == 0x101 || item == 0x102
def itemGroup (item : Nat) : Nat := if item ≤ 2 then 0 else if item = 3 then 1 else if item = 0x102 then 3 else 2
/-- The slice of an item's unit, or for DAC_PHY 16 + the channel. -/
def itemSlice (item unit : Nat) : Nat := if item ≤ 3 then unit / 16 else if item = 0x102 then 16 + unit else unit
/-- Whether two runs name the same instance: the same way of a tag bank, way of a directory bank, slice or DAC (log entry 63). -/
def sameUnit (a b : Run) : Bool := itemGroup a.item.toNat == itemGroup b.item.toNat && a.unit == b.unit
/-- Whether two runs share a group of one slice (R736). -/
def sameGroup (a b : Run) : Bool :=
  itemGroup a.item.toNat == itemGroup b.item.toNat && itemSlice a.item.toNat a.unit == itemSlice b.item.toNat b.unit
/-- The island that a run's entries name. -/
def runIsland (r : Run) : Nat := let x := itemSlice r.item.toNat r.unit; if x < 16 then x else dacIsland (x - 16)

def M.runOf (m : M) (id : BitVec 16) : Option Run := m.proof.runs.find? fun r => r.id == id
def M.updRun (m : M) (id : BitVec 16) (f : Run → Run) : M :=
  m.setProof fun p => { p with runs := p.runs.map fun r => if r.id == id then f r else r }
/-- The last 16 runs accepted (R661). -/
def knownRun (m : M) (id : BitVec 16) : Option Run := (m.proof.runs.drop (m.proof.runs.length - 16)).find? fun r => r.id == id
/-- Drops the runs that have ended and are not among the last 16. -/
def pruneRuns (m : M) : M :=
  m.setProof fun p =>
    let old := p.runs.length - 16
    { p with runs := (p.runs.take old).filter (fun r => r.state != 2) ++ p.runs.drop old }

/-- Sets or clears one bit of a slice's exclusion mask: bits 0 to 15 tag ways, 16 to 31 directory ways (Table 16.10). -/
def setExcl (m : M) (x k : Nat) (b : Bool) : M :=
  let old := Tab.get (fun _ => (0 : BitVec 32)) m.proof.excl x
  let bit_ : BitVec 32 := 1 <<< k
  m.setProof fun p => { p with excl := Tab.put (fun _ => 0) p.excl x (if b then old ||| bit_ else old &&& ~~~bit_) }
def retireWay (m : M) (x k : Nat) : M :=
  let old := Tab.get (fun _ => (0 : BitVec 32)) m.proof.retired x
  m.setProof fun p => { p with retired := Tab.put (fun _ => 0) p.retired x (old ||| (1 <<< k)) }

/-- A run starts: its way is excluded, its bank broadcasts, or its slice places ATOMs near (R738, R746). -/
def startRun (m : M) (r : Run) : M :=
  let m := m.updRun r.id fun r => { r with state := 1 }
  let x := itemSlice r.item.toNat r.unit
  match r.item.toNat with
  | 1 | 2 => setExcl m x (r.unit % 16) true
  | 3 => setExcl m x (16 + r.unit % 16) true
  | 4 => m.setProof fun p => { p with dirLogic := if p.dirLogic.contains x then p.dirLogic else p.dirLogic ++ [x] }
  | 5 => m.setProof fun p => { p with aluNear := if p.aluNear.contains x then p.aluNear else p.aluNear ++ [x] }
  | _ => m
/-- Queued runs start in the order of acceptance, where their group is free (R736). -/
def startQueued (m : M) : M :=
  m.proof.runs.foldl (fun m r =>
    if r.state == 0 && !r.stopping && (!itemOffline r.item.toNat || m.modeBit mQuiesce) && !(m.proof.runs.any fun o => o.state == 1 && sameGroup o r) then startRun m r else m) m

/-! ### Evacuation (R739 to R745) -/

/-- The listed tag entries of one way in one block of a slice, by key. -/
def tagBlock (m : M) (x w b : Nat) : List (Nat × TagEntry) :=
  (tagList m).filter fun kv =>
    kv.1 / 524288 == x && kv.1 % 16 == w && kv.1 / 16 % 32768 / 256 == b
/-- The listed directory entries of one way in one block. -/
def dirBlock (m : M) (x w b : Nat) : List (Nat × DirEntry) :=
  m.coh.dir.filter fun kv => kv.1 / 131072 == x && kv.1 % 16 == w && kv.1 / 16 % 8192 / 256 == b

/-- Steps 1 to 3 of R739, and R742 for a mirror folio. -/
def evacuate (e : Env) (m : M) (x w b : Nat) : M :=
  (tagBlock m x w b).foldl (fun m kv =>
    if tagEmpty e m kv.1 then m
    else
      let t := m.tagAt kv.1
      let m := putTag e m kv.1 { t with evac := true }
      if t.mirrorFolio then
        (List.range 32).foldl (fun m k =>
          if t.sector k = 3 then
            let m := putTag e m kv.1 ((m.tagAt kv.1).setSector k 0)
            sendCkl e m (.mirLost 0 (keyLine kv k))
          else m) m
      else
        let m := (List.range 32).foldl (fun m k =>
          if 2 ≤ t.sector k then count e (cleanLine e m (keyLine kv k) []) x 0x17 1 none else m) m
        flushLines e m (fun l => folioOf l == folioOf (keyLine kv 0)) 5) m
/-- The lines of folios under evacuation that are Dirty: those that a promotion has made so come on top of step 2 of R739 (R750). -/
def evacLines (m : M) (x w b : Nat) : List Line :=
  (tagBlock m x w b).flatMap fun kv =>
    if kv.2.evac && !kv.2.mirrorFolio then ((List.range 32).filter fun k => decide (2 ≤ kv.2.sector k)).map (keyLine kv) else []
/-- Step 4 of R739: entries that hold nothing Dirty, no galley entry and no miss-tracking entry are emptied; answers whether the whole way
is empty in the block. -/
def emptyWay (e : Env) (m : M) (x w b : Nat) : M × Bool :=
  let ls := (evacLines m x w b).filter fun l => !writingBack m l
  let m := count e (cleanAll e m ls fun _ _ => true) x 0x17 ls.length none
  let m := (tagBlock m x w b).foldl (fun m kv =>
    let t := m.tagAt kv.1
    if t.evac && t.dirtyCount == 0 && !t.pinned && !tagHeld e m kv.1 then putTag e m kv.1 .empty else m) m
  (m, (tagBlock m x w b).all fun kv => tagEmpty e m kv.1)

/-- A directory entry of the way moves to a way in state I, or to a tracker (R745). -/
def moveDir (e : Env) (m : M) (x : Nat) (kv : Nat × DirEntry) : M :=
  let d := m.dirAt kv.1
  if !d.live || d.grantPending || d.txnOpen || d.recoverHold || d.fillReserved then m
  else
    match dirWay m d.lineTag with
    | some (w, false) => putDir e (putDir e m (dirKey d.lineTag w) d) kv.1 .empty
    | _ =>
      if 16 ≤ trackers m x then m
      else
        let d := { d with presence := if d.st == .S then d.presence &&& ~~~(fenceMask e m) else d.presence }
        startTracker e (putDir e m kv.1 .empty) d
def emptyDirWay (e : Env) (m : M) (x w b : Nat) : M × Bool :=
  let m := (dirBlock m x w b).foldl (fun m kv => moveDir e m x kv) m
  (m, (dirBlock m x w b).isEmpty)

/-- The words of one way in one block, of the tag bank or of the directory bank. -/
def wayWords (w b : Nat) : List Nat :=
  (List.range 256).flatMap fun k => let i := ((b * 256 + k) * 16 + w) * 2; [i, i + 1]
/-- The release of a block: every entry of the way is rewritten with content 0 (R744). -/
def releaseBlock (e : Env) (m : M) (r : Run) : M :=
  let x := itemSlice r.item.toNat r.unit
  let w := r.unit % 16
  if r.item == 3 then wordsWritten e m 2 x (wayWords w r.step)
  else
    let m := (tagBlock m x w r.step).foldl (fun m kv => m.setTag kv.1 .empty) m
    wordsWritten e m 1 x (wayWords w r.step)
/-- A block whose evacuation is given up: the folios left in it keep their content and are served as before (log entry 64). -/
def keepBlock (m : M) (r : Run) : M :=
  if r.item == 3 then m
  else (tagBlock m (itemSlice r.item.toNat r.unit) (r.unit % 16) r.step).foldl (fun m kv =>
    m.setTag kv.1 { m.tagAt kv.1 with evac := false }) m

/-! ### The ink of a step (Table 16.1, R741) and the plan (R717, R719) -/

/-- The Dirty lines that the evacuation of one block of a way writes back; those of mirror folios are not the device's to write. -/
def evacDirty (m : M) (x w b : Nat) : Nat :=
  listSum (((tagBlock m x w b).filter fun kv => !kv.2.mirrorFolio).map fun kv => kv.2.dirtyCount)
/-- The ink of one step of a run: 15 for each 64 KiB, or part of it, that must be written back come on top. -/
def stepInk (m : M) (r : Run) (step : Nat) : Nat :=
  let evac := 15 * ((evacDirty m (itemSlice r.item.toNat r.unit) (r.unit % 16) step + 511) / 512)
  match r.item.toNat with
  | 1 => 40 + evac
  | 2 => 4000 + evac
  | 3 => 20
  | 4 => 200
  | 5 => 50
  | 0x101 => 100
  | _ => 2000
/-- The costs of the proof steps that a plan asks for, each the next one of its run, as the slices count them now. -/
def proofCosts (m : M) (ids : List (BitVec 16)) : List Nat :=
  (ids.zipIdx).filterMap fun x => (m.runOf x.1).map fun r =>
    stepInk m r (r.step + ((ids.take x.2).filter fun y => y == x.1).length)

/-- PLAN_EPOCH: the firmware plans the open epoch and posts the quotas on the PLAN ring.  A plan that comes later than 100 µs after the
boundary sets no quota (R719). -/
def execPlanEpoch (d : PlanDemand) (s : State) : Host.Outcome State Fault Refusal :=
  run s fun e m => whenAlive m fun m =>
    if m.jpc.fw != .running || m.ink.planned then m
    else
      let late := m.ink.planMissing || decide (m.epochStart + 5000 < m.now)
      let costs := planCosts d (proofCosts m d.proof)
      let quota := if late then [0, 0, 0, 0, 0, 0] else planTasks 0 costs (planRoom e m)
      passOpen (m.setInk fun i => { i with
        quota := quota, deferred := listSub (costs.map List.length) quota, planned := !late, planMissing := late }) 20

/-! ### Steps (R737, R746 to R749, Table 16.2) -/

/-- The patterns of a DATA_WAY step are writes of the block's codewords, which wake the channels (R78) and which an armed frisket of a
channel strikes (R489). -/
def patternWrites (e : Env) (m : M) (r : Run) : M :=
  let v := e.fuse.variant
  let n := 32 / v.dacs * 2
  let slot (k : Nat) : Nat := ((r.unit / 16) * v.sets + r.step * 256 + k) * 16 + r.unit % 16
  (List.range v.dacs).foldl (fun m d =>
    let f := (m.dac d).frisket
    let a := if f.matchEn then f.matchAddr.toNat else slot 0 * n
    let s := a / n
    let inBlock := s % 16 == r.unit % 16 && s / 16 / 256 == slot 0 / 16 / 256
    let m := if (m.dac d).st == .active then leaveSref (wakeIsland e m (dacIsland d)) d else m
    if f.armed && (m.dac d).st == .active && inBlock then writeCw e m d a 0 false else m) m

/-- Every set of a slice's bank is lost (Table 16.2). -/
def loseBank (e : Env) (m : M) (x : Nat) : M := (List.range 8192).foldl (fun m k => loseDirSet e m x k) m

/-- What a fault leaves behind until cold reset. -/
def proofFault (e : Env) (m : M) (r : Run) : M :=
  let x := itemSlice r.item.toNat r.unit
  match r.item.toNat with
  | 1 | 2 => retireWay m x (r.unit % 16)
  | 3 => retireWay m x (16 + r.unit % 16)
  | 4 => loseBank e m x
  | 0x101 => loseSlice e m x 2
  | _ => m

/-- The test of one step with what it found, the release of its block, and STEP_DONE.  The firmware's order wakes the unit (R78). -/
def testStep (e : Env) (m : M) (r : Run) (f : StepFacts) : M :=
  let x := itemSlice r.item.toNat r.unit
  let m := wakeIsland e m (runIsland r)
  let m := if x < 16 then openLookups e m x else m
  let m := if r.item == 2 then patternWrites e m r else m
  let m := if r.item == 0x102 then
      (List.range 40).foldl (fun m k => if f.pins.getLsbD k then markPin e m r.unit k 4 else m) m
    else m
  let m := f.faults.foldl (fun m a =>
    log e m 0x0901 (runIsland r) (r.item.setWidth 32) (BitVec.ofNat 32 r.unit) (a.setWidth 64)) m
  let m := if r.item.toNat ≤ 3 then releaseBlock e m r else m
  let m := m.updRun r.id fun r => { r with
    step := r.step + 1, evacuating := false, window := false, faults := r.faults + f.faults.length
    verdict := if f.faults.isEmpty then r.verdict else 1 }
  let m := if f.faults.isEmpty then m else proofFault e m r
  if x < 16 then pushSfr e m x 1 r.id.toNat r.step f.faults.length ((f.faults.headD 0).toNat) else m

/-- The evacuation of the step's block goes on; once the way is empty there, the window opens (R743). -/
def goOn (e : Env) (m : M) (r : Run) : M :=
  let x := r.unit / 16
  let m := wakeIsland e m x
  let (m, done) := if r.item == 3 then emptyDirWay e m x (r.unit % 16) r.step else emptyWay e m x (r.unit % 16) r.step
  if !done then m
  else pushSfr e (m.updRun r.id fun r => { r with evacuating := false, window := true }) x 2 r.id.toNat r.step 0 0

/-- The order of a step on the PROOF ring (Table 16.9); 0xFFFF orders a release. -/
def proofOrder (m : M) (r : Run) (step : Nat) : M :=
  passRing m 19 (entryOf16 [(0, r.item.toNat), (2, r.unit), (4, r.id.toNat), (6, step)])

/-- Whether a run has nothing left to do but to end: all its steps are done, or a fault was found (R748). -/
def runReady (r : Run) : Bool := r.verdict == 1 || r.step == r.steps

/-- PROOF_STEP: the step that the planner has admitted.  Where its block does not become empty at once, the test follows EVAC_COMPLETE
with the next of these commands. -/
def proofStep (e : Env) (m : M) (r : Run) (f : StepFacts) : M :=
  if r.state != 1 || r.evacuating || runReady r then m
  else if r.window then testStep e m r f
  else if r.stopping then m
  else
    match takeQuota m 3 with
    | none => m
    | some m =>
      let m := proofOrder m r r.step
      if 4 ≤ r.item.toNat then testStep e m r f
      else
        let m := m.updRun r.id fun r => { r with evacuating := true }
        let m := if r.item == 3 then m else evacuate e m (r.unit / 16) (r.unit % 16) r.step
        let m := goOn e m { r with evacuating := true }
        match m.runOf r.id with
        | some r => if r.window then testStep e m r f else m
        | none => m
def execProofStep (runId : BitVec 16) (r : StepFacts) (s : State) : Host.Outcome State Fault Refusal :=
  act s fun e m =>
    match m.runOf runId with
    | some x => if m.jpc.fw == .running then proofStep e m x r else m
    | none => m

/-- EVAC_COMPLETE: the way of a running item is empty in its block (R743). -/
def execEvacComplete (x : Fin 16) (block : Nat) (s : State) : Host.Outcome State Fault Refusal :=
  act s fun e m =>
    (m.proof.runs.filter fun r => r.evacuating && r.unit / 16 == x.val && r.step == block).foldl (goOn e) m

/-! ### The end of a run (R660, R738, R744, R696) -/

/-- Once no offline item holds its unit, the ports release what QUIESCE held (R696). -/
def proofReleased (e : Env) (m : M) : M :=
  if !m.mode.proofReleasing || m.proof.runs.any (fun r => r.state == 1 && itemOffline r.item.toNat) then m
  else [HPort.hpa, .hpb].foldl (releaseQuiesce e) (m.setMode fun x => { x with proofReleasing := false })

/-- A run leaves its unit: the block in hand, the exclusion and the broadcast, unless a fault keeps them. -/
def leaveUnit (e : Env) (m : M) (r : Run) : M :=
  let x := itemSlice r.item.toNat r.unit
  let m := if r.window then releaseBlock e (proofOrder m r 0xFFFF) r else if r.evacuating then keepBlock (proofOrder m r 0xFFFF) r else m
  if r.state != 1 then m
  else
    match r.item.toNat with
    | 1 | 2 => if r.verdict == 1 then m else setExcl m x (r.unit % 16) false
    | 3 => if r.verdict == 1 then m else setExcl m x (16 + r.unit % 16) false
    | 4 => m.setProof fun p => { p with dirLogic := p.dirLogic.filter (· != x) }
    | 5 => if r.verdict == 1 then m else m.setProof fun p => { p with aluNear := p.aluNear.filter (· != x) }
    | _ => m
/-- A run ends with a verdict: 0 PASS, 1 FAIL, 2 ABORTED. -/
def stopRun (e : Env) (m : M) (r : Run) (verdict : Nat) : M :=
  let m := leaveUnit e m r
  let m := m.updRun r.id fun r => { r with state := 2, evacuating := false, window := false, verdict := verdict }
  log e m 0x0902 srcJpc (r.id.setWidth 32) (BitVec.ofNat 32 verdict) 0
/-- The end of a run as its command reports it. -/
def endRun (e : Env) (m : M) (r : Run) : M :=
  let verdict := if r.verdict == 1 then 1 else if r.stopping && !runReady r then 2 else 0
  let m := stopRun e m r verdict
  let m := finishCmd e m r.cmd (if verdict = 2 then r.status.toNat else 0)
    (resAt 8 r.id.toNat ||| resAt 10 verdict ||| resAt 12 r.faults)
  proofReleased e (startQueued (pruneRuns m))
/-- Orders the stop of the runs that `p` names, with the final status of their commands. -/
def stopRuns (m : M) (p : Run → Bool) (status : Nat) : M :=
  m.setProof fun x => { x with runs := x.runs.map fun r =>
    if r.state != 2 && !r.stopping && p r then { r with stopping := true, status := BitVec.ofNat 8 status } else r }

/-- PROOF_RUN_END: all steps are done, a fault ends the run, or its stop was ordered. -/
def execProofRunEnd (runId : BitVec 16) (s : State) : Host.Outcome State Fault Refusal :=
  act s fun e m =>
    match m.runOf runId with
    | some r =>
      if m.jpc.fw != .running || r.state == 2 || !(r.stopping || runReady r) then m else endRun e m r
    | none => m

/-- PROOF_RUN_LIMIT: the limit of the command; an item between two steps stops at once. -/
def execProofRunLimit (runId : BitVec 16) (s : State) : Host.Outcome State Fault Refusal :=
  act s fun e m =>
    match m.runOf runId with
    | none => m
    | some r =>
      match (m.acceptedCmd r.cmd).bind (·.deadline) with
      | none => m
      | some t =>
        if r.state == 2 || r.stopping || runReady r || m.jpc.fw != .running then m
        else
          let m := stopRuns (elapseTo e m t) (fun x => x.id == runId) 0x18
          if r.evacuating || r.window then m
          else endRun e m { r with stopping := true, status := 0x18 }

/-! ### Patrol (R751 to R756) -/

/-- The chunks of a pass (Table 16.4). -/
def passLength (v : Variant) (da : Bool) : Nat := if da then v.sets * 16 else v.sets / 16
/-- The period in ticks: minutes of 3,000,000,000 ticks. -/
def patrolTicks (c : Cfg) : Nat := c.patrolMinutes.toNat * 3000000000
def M.pass (m : M) (da : Bool) : Pass := if da then m.proof.data else m.proof.tag
def M.setPass (m : M) (da : Bool) (x : Pass) : M :=
  m.setProof fun p => if da then { p with data := x } else { p with tag := x }
/-- chunks due less chunks done (R752). -/
def patrolDemand (e : Env) (m : M) (da : Bool) : Nat :=
  passLength e.fuse.variant da * (m.now - (m.pass da).start) / patrolTicks e.cfg - (m.pass da).done
def patrolBehind (e : Env) (m : M) (da : Bool) : Bool :=
  decide (passLength e.fuse.variant da < 128 * patrolDemand e m da)

/-- One line of a data-array chunk (R754, R755); a line whose galley entry or fill is still to be written to the array is passed over. -/
def patrolLine (e : Env) (m : M) (kv : Nat × TagEntry) (k : Nat) (reads : List PatrolRead) : M :=
  let l := keyLine kv k
  let w := kv.1 % 16
  let sector := (m.tagAt kv.1).sector k
  let err (h : Bool) : BitVec 40 := ((reads.find? fun r => r.line == l && r.half == h).map (·.err)).getD 0
  if sector = 0 || dacDown e m l || (fillOf e m l).isSome || m.coh.galley.any fun g => g.line == l then m
  else
    let v := e.fuse.variant
    let m := count e (wakeIsland e m (dacIsland (dacOf v l))) (dacIsland (dacOf v l)) 8 2 none
    let (m, data, _, ue) := readLineOf e m l w (m.cw (cwKey v l w 0)) (m.cw (cwKey v l w 1)) (err false) (err true)
    if !ue then m
    else if (m.tagAt kv.1).mirrorFolio then
      let m := putTag e m kv.1 ((m.tagAt kv.1).setSector k 0)
      sendCkl e m (.mirLost 0 l)
    else if sector = 1 then putTag e m kv.1 ((m.tagAt kv.1).setSector k 0)
    else
      match if sector = 3 then askTwin e m l else none with
      | some m => m
      | none => recordLost e m l data

/-- A data-array chunk: the 16 ways of one set of one slice (Table 10.4).  Patrol's reads wake the islands that they need (R78), and skip
a slice that is lost. -/
def patrolData (e : Env) (m : M) (chunk : Nat) (reads : List PatrolRead) : M :=
  let x := chunk / e.fuse.variant.sets
  let set := chunk % e.fuse.variant.sets
  let excl := Tab.get (fun _ => (0 : BitVec 32)) m.proof.excl x
  let m := openLookups e (wakeIsland e m x) x
  if sliceDead m x then m else ((tagList m).filter fun kv => kv.1 / 16 == x * 32768 + set && !excl.getLsbD (kv.1 % 16)).foldl (fun m kv =>
    (List.range 32).foldl (fun m k => patrolLine e m kv k reads) m) m
/-- A tag-store chunk: the words of 256 sets (R756). -/
def patrolTag (e : Env) (m : M) (chunk : Nat) : M :=
  let x := chunk * 256 / e.fuse.variant.sets
  let set := chunk * 256 % e.fuse.variant.sets
  let m := openLookups e (wakeIsland e m x) x
  if sliceDead m x then m else (m.coh.bad.filter fun b => b.target == 1 && b.slice == x && b.word / 8192 == set / 256).foldl (fun m b =>
    let (m, r) := readWord e m 1 x b.word
    if r = 2 then tagUe e m (x * 524288 + b.word / 2) (b.word % 2 = 1) else m) m

/-- A chunk is done; the last one ends the pass (R753). -/
def chunkDone (e : Env) (m : M) (da : Bool) : M :=
  let p := m.pass da
  if p.done + 1 < passLength e.fuse.variant da then m.setPass da { p with done := p.done + 1 }
  else
    let m := log e m 0x0903 srcJpc (BitVec.ofNat 32 (1 - bit da)) (BitVec.ofNat 32 p.number) 0
    m.setPass da ⟨max m.now (p.start + patrolTicks e.cfg), 0, p.number + 1, false⟩
def patrolOn (e : Env) (m : M) (da : Bool) : Bool :=
  m.modeBit mPatrol && e.cfg.patrolTargets.getLsbD (if da then 0 else 1) && decide ((m.pass da).start ≤ m.now)
/-- Whether a chunk of a target may be done now: patrol of channels in self-refresh is deferred until they leave it (Table 14.5, row 55),
and a chunk of the data array reads every channel (DEDUCED, log entry 112). -/
def patrolDue (e : Env) (m : M) (da : Bool) : Bool :=
  patrolOn e m da && !(da && (List.range 8).any fun d => (m.dac d).sref)
/-- A chunk of patrol takes the quota of the order in which its target stands now, or else what the plan has left in the other. -/
def patrolQuota (e : Env) (m : M) (da : Bool) : Option M :=
  let t := if patrolBehind e m da then 2 else 4
  (takeQuota m t).or (takeQuota m (6 - t))
/-- PATROL_CHUNK: the next chunk of a target (`true` the data array), ordered on the PATROL ring. -/
def execPatrolChunk (target : Bool) (reads : List PatrolRead) (s : State) : Host.Outcome State Fault Refusal :=
  act s fun e m =>
    if m.jpc.fw != .running || !patrolDue e m target then m
    else
      match patrolQuota e m target with
      | none => m
      | some m =>
        let chunk := (m.pass target).done
        let m := passRing m 18 (entryOf16 [(0, 1 - bit target), (4, chunk), (8, 1)])
        chunkDone e (if target then patrolData e m chunk reads else patrolTag e m chunk) target
/-- PATROL_LATE: the pass has not ended P ms after its start. -/
def execPatrolLate (target : Bool) (s : State) : Host.Outcome State Fault Refusal :=
  act s fun e m =>
    let p := m.pass target
    if !patrolOn e m target || p.late then m
    else
      let m := elapseTo e m (p.start + patrolTicks e.cfg)
      log e (m.setPass target { p with late := true }) 0x0904 srcJpc (BitVec.ofNat 32 (1 - bit target)) 0 0

/-! ### The PATROL and PROOF group (R657 to R661) -/

/-- PATROL_CFG. -/
def execPatrolCfg (d : Desc) (s : State) : Host.Outcome State Fault Refusal :=
  runCfg s fun fuse cfg m =>
    if !m.alive then (cfg, m)
    else
      let minutes := descArg d 8 4
      let targets := descArg d 12 1
      let diag := descArg d 13 1
      let c : Cmd := { opcode := 0x0800,
                       badArg := decide (minutes < 60) || decide (10080 < minutes) || targets == 0 || decide (4 ≤ targets)
                         || decide (2 ≤ diag) || !descOnly d [(8, 6)] }
      let ok := served m d c && (refusal m d c (privileged m d)).isNone
      let m := command ⟨fuse, cfg⟩ m d c fun m =>
        (m, resAt 8 cfg.patrolMinutes.toNat ||| resAt 12 cfg.patrolTargets.toNat ||| resAt 13 (bit cfg.patrolDiag))
      (if ok then { cfg with patrolMinutes := BitVec.ofNat 32 minutes, patrolTargets := BitVec.ofNat 2 targets, patrolDiag := diag == 1 }
       else cfg, m)

/-- The next run_id: 0 is skipped. -/
def nextRunId (n : BitVec 16) : BitVec 16 := if n == 0xFFFF then 1 else n + 1

/-- PROOF_RUN. -/
def execProofRun (d : Desc) (s : State) : Host.Outcome State Fault Refusal :=
  act s fun e m =>
    let item := descArg d 8 2
    let unit := descArg d 10 2
    let info := itemInfo e.fuse.variant item
    let units := (info.map (·.units)).getD 0
    let offline := (info.map (·.offline)).getD false
    let r : Run := ⟨m.proof.nextRun, BitVec.ofNat 16 item, unit, 0, 0, (info.map (·.steps)).getD 0, false, false, 0, 0, 0, false, 0⟩
    commandLater e m d {
        opcode := 0x0801
        absent := (item == 5 && !e.fuse.variant.far) || (item == 0x102 && unit < 8 && !dacPresent e unit)
        badArg := decide (units ≤ unit) || !descOnly d [(8, 8)]
        blocks := (if m.modeBit mProof then [] else [3]) ++ (if offline && !m.modeBit mQuiesce then [2] else [])
          ++ (if offline && m.modeBit mQuiesce && m.mode.settling.getLsbD mQuiesce then [4] else [])
        busy := m.proof.runs.any fun o => o.state == 1 && sameUnit o r }
      (descArg d 12 4) 0 0 (fun m => resAt 8 m.proof.nextRun.toNat) fun m id =>
        let m := m.setProof fun p => { p with runs := p.runs ++ [{ r with cmd := id }], nextRun := nextRunId p.nextRun }
        startQueued (pruneRuns m)

/-- PROOF_STATUS. -/
def execProofStatus (d : Desc) (s : State) : Host.Outcome State Fault Refusal :=
  run s fun e m => whenAlive m fun m =>
    let r := knownRun m (BitVec.ofNat 16 (descArg d 8 2))
    command e m d { opcode := 0x0802, any := true, badArg := r.isNone || !descOnly d [(8, 2)] } fun m =>
      match r with
      | none => (m, 0)
      | some r =>
        (m, resAt 8 r.id.toNat ||| resAt 10 r.state ||| resAt 11 (r.step * 100 / r.steps)
          ||| resAt 12 (if r.state = 2 then r.verdict else 0) ||| resAt 14 r.item.toNat ||| resAt 16 r.faults)

/-- PROOF_ABORT: the stop is ordered, and the end of the run follows. -/
def execProofAbort (d : Desc) (s : State) : Host.Outcome State Fault Refusal :=
  run s fun e m => whenAlive m fun m =>
    let id : BitVec 16 := BitVec.ofNat 16 (descArg d 8 2)
    let r := knownRun m id
    let ended := match r with
      | some r => r.state == 2
      | none => false
    command e m d { opcode := 0x0803, badArg := r.isNone || !descOnly d [(8, 2)], blocks := if ended then [0xF] else [] } fun m =>
      (stopRuns m (fun x => x.id == id) 0x1A, 0)

end Sys2Proof.Machine
end

