-- ==== Sys2Proof/Machine/Errata.lean ====
section
/-!
DEFINITION. The commands of the LOG group (R667 to R671, R768 to R771).
-/

namespace Sys2Proof.Machine

open Sys2Proof

/-- The bits of an entry as LOG_READ returns it: an uncorrectable word reads as ones, and the code of such an entry is 0xFFFF while the
log is degraded (R771). -/
def readEntry (m : M) (x : LogEntry) (index : Option Word) : Nat :=
  let ws := logWords m (some x) index
  let bits := (List.range 8).foldl (fun n k => n + (ws.getD k 0).toNat * 2 ^ (32 * k)) 0
  let bad := match index with
    | some i => m.err.bad.any fun b => b.1 == i
    | none => false
  if m.err.degraded && bad then bits - bits / 2 ^ 64 % 2 ^ 16 * 2 ^ 64 + 0xFFFF * 2 ^ 64 else bits
/-- The index of the log that a read of `i` returns: the oldest held for an older one, none for one not yet written (R669). -/
def logIndex (m : M) (i : Word) : Option Word :=
  let r := m.err
  if (i - r.next).toNat < 2 ^ 31 then none
  else
    let j := if (r.next - i).toNat ≤ (r.next - r.oldest).toNat then i else r.oldest
    if j == r.next then none else some j
/-- A read of the log that finds an uncorrectable word degrades it (R770). -/
def logFound (e : Env) (m : M) (i : Word) : M :=
  match m.err.bad.find? fun b => b.1 == i with
  | some b => if m.err.degraded then m else degradeLog e m (i.toNat % 32768 * 4 + b.2) none
  | none => m

/-- LOG_READ.  For the slip the two log indices of the result are not stated: they are open (log entry 65). -/
def execLogRead (d : Desc) (s : State) : Host.Outcome State Fault Refusal :=
  run s fun e m => whenAlive m fun m =>
    let i : Word := BitVec.ofNat 32 (descArg d 8 4)
    let source := descArg d 12 1
    let at_ : Option (Word × LogEntry × Option Word) :=
      if source = 0 then (logIndex m i).bind fun j => (m.err.log.find? fun x => x.1 == j).map fun x => (j, x.2, some j)
      else (slipEntry m i.toNat).map fun x => (i, x, none)
    command e m d { opcode := 0x0A00, early := true
                    badArg := decide (2 ≤ source) || (source == 1 && decide (8 ≤ i.toNat)) || !descOnly d [(8, 5)]
                    blocks := if at_.isNone then [0xF] else [] } fun m =>
      match at_ with
      | none => (m, 0)
      | some (j, x, index) =>
        let m := match index with
          | some k => logFound e m k
          | none => { m with free := m.free + 2 }
        let oldest := if source = 0 then m.err.oldest else Config.freeWord (m.free - 2)
        let next := if source = 0 then m.err.next else Config.freeWord (m.free - 1)
        (m, resAt 8 j.toNat ||| resAt 12 oldest.toNat ||| resAt 16 next.toNat ||| resAt 20 (readEntry m x index))

/-- LOG_CLEAR. -/
def execLogClear (d : Desc) (s : State) : Host.Outcome State Fault Refusal :=
  run s fun e m => whenAlive m fun m =>
    let t := descArg d 8 1
    command e m d { opcode := 0x0A01, badArg := t == 0 || decide (4 ≤ t) || !descOnly d [(8, 1)]
                    blocks := if t % 2 = 1 && m.err.degraded then [0xF] else [] } fun m =>
      let n := (if t % 2 = 1 then m.err.log.length else 0) + (if 2 ≤ t then m.err.slip.length else 0)
      let m := if t % 2 = 1 then m.setErr fun r => { r with log := [], oldest := r.next, bad := [] } else m
      let m := if 2 ≤ t then m.setErr fun r => { r with slip := [] } else m
      (log e m 0x0A02 31 (BitVec.ofNat 32 t) (BitVec.ofNat 32 n) 0, resAt 8 m.err.next.toNat)

/-- LOG_POLICY. -/
def execLogPolicy (d : Desc) (s : State) : Host.Outcome State Fault Refusal :=
  runCfg s fun fuse cfg m =>
    if !m.alive then (cfg, m)
    else
      let c : Cmd := { opcode := 0x0A02, badArg := !descOnly d [(8, 1), (12, 4)] }
      let ok := served m d c && (refusal m d c (privileged m d)).isNone
      let m := command ⟨fuse, cfg⟩ m d c fun m => (m, resAt 8 cfg.logSeverity.toNat ||| resAt 12 cfg.logClasses.toNat)
      (if ok then { cfg with logSeverity := BitVec.ofNat 8 (descArg d 8 1), logClasses := BitVec.ofNat 32 (descArg d 12 4) } else cfg, m)

end Sys2Proof.Machine
end

