-- ==== Sys2Proof/Machine/Settings.lean ====
section
/-!
DEFINITION. The commands of the INFO, MODE, RAT and ATOM groups (R622 to R634, R675, R676, chapter 14).
-/

namespace Sys2Proof.Machine

open Sys2Proof

/-! ### INFO (Table 13.4) -/

/-- The version that runs; 0 in RECOVERY (R593). -/
def runningVersion (m : M) : Word := if m.jpc.fw == .recovery then 0 else m.jpc.version
/-- INFO_GET. -/
def execInfoGet (d : Desc) (s : State) : Host.Outcome State Fault Refusal :=
  run s fun e m => whenAlive m fun m =>
    command e m d { opcode := 0x0100, any := true, early := true, recovery := true, badArg := !descOnly d [] } fun m =>
      (m, resAt 8 e.fuse.caps.toNat ||| resAt 12 e.fuse.serial.toNat ||| resAt 28 (runningVersion m).toNat
        ||| resAt 32 (bit m.pins.pairSide) ||| resAt 33 (0x58 + m.pins.smbStraps.toNat)
        ||| resAt 34 (if e.fuse.variant.ckl then m.twin.st.n else 0) ||| resAt 35 m.jpc.fw.n)
/-- COLOPHON_GET. -/
def execColophonGet (d : Desc) (s : State) : Host.Outcome State Fault Refusal :=
  run s fun e m => whenAlive m fun m =>
    let page := descArg d 8 1
    command e m d { opcode := 0x0101, any := true, early := true, recovery := true
                    badArg := decide (2 ≤ page) || !descOnly d [(8, 1)] } fun m =>
      let sn := e.fuse.serial
      let f (lo n : Nat) : Nat := (sn.extractLsb' lo n).toNat
      (m, if page = 0 then
          resAt 8 (f 0 32) ||| resAt 12 (f 32 8) ||| resAt 13 (f 40 8) ||| resAt 14 (f 48 8) ||| resAt 16 (f 56 48)
            ||| resAt 22 (f 104 8) ||| resAt 24 (f 112 16) ||| resAt 26 (bit (serialCheck (sn.setWidth 112) == sn.extractLsb' 112 16))
        else resAt 8 (bit e.fuse.sigRequired) ||| resAt 12 e.fuse.keyHash.toNat)
/-- FW_VERSION. -/
def execFwVersion (d : Desc) (s : State) : Host.Outcome State Fault Refusal :=
  run s fun e m => whenAlive m fun m =>
    command e m d { opcode := 0x0102, any := true, early := true, recovery := true, badArg := !descOnly d [] } fun m =>
      let j := m.jpc
      let valid := if j.slot then j.record.valid0 else j.record.valid1
      let other : Word := if valid then j.versions.getD (1 - bit j.slot) 0 else 0
      (m, resAt 8 (runningVersion m).toNat ||| resAt 12 other.toNat ||| resAt 16 (bit j.slot) ||| resAt 17 (bit j.trialRun)
        ||| resAt 18 (bit j.record.rolledBack) ||| resAt 19 (bit j.sigChecked) ||| resAt 20 e.fuse.romVersion.toNat)

/-! ### MODE (R625 to R630, R686 to R698) -/

/-- Every composing stick is flushed (Table 6.6). -/
def flushAllSticks (e : Env) (m : M) (cause : Nat) : M :=
  [HPort.hpa, .hpb].foldl (fun m p => flushSticks e m p (fun _ => true) cause false) m
/-- Offline proof items end when QUIESCE is cleared; while one holds its unit, the ports go on holding requests (R696). -/
def leaveQuiesce (e : Env) (m : M) : M :=
  let off (r : Run) : Bool := itemOffline r.item.toNat
  let running := m.proof.runs.any fun r => r.state == 1 && off r
  let m := stopRuns m off 0x1A
  if running then m.setMode fun x => { x with proofReleasing := true }
  else [HPort.hpa, .hpb].foldl (releaseQuiesce e) m
/-- One change of the modes with all that it brings (R689, R692, R696, Tables 14.2 and 14.3, R713, R797). -/
def changeModes (e : Env) (m : M) (set clear : BitVec 12) : M :=
  let old := m.modeActive
  let m := writeModes e m set clear
  let new := m.modeActive
  let rises (n : Nat) : Bool := !old.getLsbD n && new.getLsbD n
  let falls (n : Nat) : Bool := old.getLsbD n && !new.getLsbD n
  let m := if rises mMirror then startCatchup m else if falls mMirror then mirrorExit e m else m
  let m := if rises mInkCap then m.setInk fun i => { i with carry := [0, 0, 0, 0] } else m
  let m := if rises mSample then resample m else m
  let m := if falls mProof then stopRuns m (fun _ => true) 0x1A else m
  let m := if rises mQuiesce then flushAllSticks e m 8 else if falls mQuiesce then leaveQuiesce e m else m
  let m := if (falls mDrain || falls mQuiesce) && !new.getLsbD mDrain && !new.getLsbD mQuiesce then
      leaveAllSref m
    else m
  settleModes m (old ^^^ new)
/-- mode_active and the settling mask, as MODE_SET, MODE_CLEAR and MODE_QUERY return them. -/
def modeResult (m : M) : BitVec 448 := resAt 8 m.modeActive.toNat ||| resAt 10 m.mode.settling.toNat
/-- The modes that need a unit the variant lacks (Table 0.4, R15). -/
def absentModes (v : Variant) : BitVec 16 :=
  (if v.ckl then 0 else 0x4) ||| (if v.far then 0 else 0x10) ||| (if v.sample then 0 else 0x200)

/-- MODE_SET. -/
def execModeSet (d : Desc) (s : State) : Host.Outcome State Fault Refusal :=
  act s fun e m =>
    let mask : BitVec 16 := BitVec.ofNat 16 (descArg d 8 2)
    let sweeping := mask.getLsbD mMirror && !m.modeBit mMirror && m.coh.sweeps.any fun x => x.2 == .mirrorExit
    let releasing := mask.getLsbD mProof && !m.modeBit mProof && m.proof.runs.any fun r => r.state == 1
    command e m d { opcode := 0x0200, kept := modeResult m, absent := mask &&& absentModes e.fuse.variant != 0
                    badArg := mask == 0 || decide (0x1000 ≤ mask.toNat) || !descOnly d [(8, 2)]
                    blocks := (if sweeping || releasing then [4] else []) ++ (if mask.getLsbD 11 then [6] else []) } fun m =>
      let m := changeModes e m (mask.setWidth 12) 0
      (m, modeResult m)
/-- MODE_CLEAR. -/
def execModeClear (d : Desc) (s : State) : Host.Outcome State Fault Refusal :=
  act s fun e m =>
    let mask : BitVec 16 := BitVec.ofNat 16 (descArg d 8 2)
    let drain := mask.getLsbD mDrain
    command e m d { opcode := 0x0201, kept := modeResult m, absent := mask.getLsbD 11 && !e.fuse.variant.ckl
                    badArg := mask == 0 || decide (0x1000 ≤ mask.toNat) || !descOnly d [(8, 2)]
                    blocks := (if mask.getLsbD 11 then [6] else []) ++ (if drain && m.twin.drainByPair then [7] else [])
                      ++ (if drain && m.twin.st == .split then [8] else []) } fun m =>
      let m := changeModes e m 0 (mask.setWidth 12)
      (m, modeResult m)
/-- MODE_QUERY. -/
def execModeQuery (d : Desc) (s : State) : Host.Outcome State Fault Refusal :=
  run s fun e m => whenAlive m fun m =>
    command e m d { opcode := 0x0202, any := true, early := true, badArg := !descOnly d [] } fun m =>
      (m, modeResult m ||| resAt 12 m.twin.st.n ||| resAt 13 (bit (degraded m)))
/-- MODE_SETTLED: the entry or exit of a mode has finished (Table 14.2). -/
def execModeSettled (n : Fin 12) (s : State) : Host.Outcome State Fault Refusal :=
  act s fun _ m =>
    if m.mode.settling.getLsbD n && finished m n then
      m.setMode fun x => { x with settling := x.settling &&& ~~~((1 : BitVec 12) <<< n.val) }
    else m

/-! ### RAT (R631 to R634, R163, R164) -/

/-- Words 0 and 1 of the entry that RAT_WRITE states. -/
def ratArg (d : Desc) : RatEntry := ⟨BitVec.ofNat 64 (descArg d 16 8), BitVec.ofNat 64 (descArg d 24 8)⟩
/-- RAT_WRITE. -/
def execRatWrite (d : Desc) (s : State) : Host.Outcome State Fault Refusal :=
  runCfg s fun fuse cfg m =>
    if !m.alive then (cfg, m)
    else
      let n := descArg d 8 1
      let x := ratArg d
      let c : Cmd := { opcode := 0x0300, badArg := decide (64 ≤ n) || !x.legal || !descOnly d [(8, 1), (16, 16)]
                       blocks := if m.twin.st == .hello || m.twin.st == .shed then [8] else [] }
      let ok := served m d c && (refusal m d c (privileged m d)).isNone
      let new := Tab.put (fun _ => RatEntry.empty) cfg.rat n x
      (if ok then { cfg with rat := new, ratWrites := cfg.ratWrites + 1 } else cfg,
        command ⟨fuse, cfg⟩ m d c fun m => (m, resAt 8 (ratCrc new).toNat))
/-- RAT_READ. -/
def execRatRead (d : Desc) (s : State) : Host.Outcome State Fault Refusal :=
  run s fun e m => whenAlive m fun m =>
    let n := descArg d 8 1
    command e m d { opcode := 0x0301, any := true, badArg := decide (64 ≤ n) || !descOnly d [(8, 1)] } fun m =>
      let x := ratEntry e.cfg.rat n
      (m, resAt 8 x.word0.toNat ||| resAt 16 x.word1.toNat ||| resAt 24 (ratCrc e.cfg.rat).toNat)

/-- RAT_SYNC: every attribute cache is emptied at once, and the requests that have looked up a span before are awaited. -/
def execRatSync (d : Desc) (s : State) : Host.Outcome State Fault Refusal :=
  act s fun e m =>
    commandLater e m d { opcode := 0x0302, badArg := !descOnly d [] } 10 0 0 (fun _ => 0) fun m id =>
      m.setCoh fun c => { c with spans := [], syncs := c.syncs ++ [(id, c.looked)] }
/-- RAT_SYNC_TIMEOUT: 10 ms have passed since a RAT_SYNC was accepted (R164). -/
def execRatSyncTimeout (id : Nat) (s : State) : Host.Outcome State Fault Refusal :=
  act s fun e m =>
    match m.acceptedCmd id with
    | none => m
    | some a =>
      if !(m.coh.syncs.any fun x => x.1 == id) || m.jpc.fw != .running then m
      else
        let m := elapseTo e m (a.start + 500000)
        finishCmd e (m.setCoh fun c => { c with syncs := c.syncs.filter fun x => x.1 != id }) id 0x18 0

/-! ### ATOM (R675, R676) -/

/-- GLB_APP_POLICY after APP_CFG. -/
def appCfg (old : BitVec 6) (ports policy hints : Nat) : BitVec 6 :=
  [0, 1].foldl (fun (x : BitVec 6) p =>
    if ports / 2 ^ p % 2 = 0 then x
    else
      let x := (x &&& ~~~((3 : BitVec 6) <<< (2 * p))) ||| (BitVec.ofNat 6 policy <<< (2 * p))
      (x &&& ~~~((1 : BitVec 6) <<< (4 + p))) ||| (BitVec.ofNat 6 hints <<< (4 + p))) old
/-- APP_CFG. -/
def execAppCfg (d : Desc) (s : State) : Host.Outcome State Fault Refusal :=
  runCfg s fun fuse cfg m =>
    if !m.alive then (cfg, m)
    else
      let ports := descArg d 8 1
      let policy := descArg d 9 1
      let hints := descArg d 10 1
      let c : Cmd := { opcode := 0x0C00, absent := !fuse.variant.far && (policy == 0 || policy == 2)
                       badArg := ports == 0 || decide (4 ≤ ports) || decide (3 ≤ policy) || decide (2 ≤ hints) || !descOnly d [(8, 3)] }
      let ok := served m d c && (refusal m d c (privileged m d)).isNone
      let new := if fuse.variant.far then appCfg cfg.appPolicy ports policy hints else cfg.appPolicy
      (if ok then { cfg with appPolicy := new } else cfg,
        command ⟨fuse, cfg⟩ m d c fun m => (m, resAt 8 new.toNat))
/-- The predictor and the far histories are cleared (R234). -/
def clearPredictor (m : M) : M := m.setCoh fun c => { c with predictor := [], history := [] }
/-- APP_RESET. -/
def execAppReset (d : Desc) (s : State) : Host.Outcome State Fault Refusal :=
  run s fun e m => whenAlive m fun m =>
    command e m d { opcode := 0x0C01, absent := !e.fuse.variant.far, badArg := !descOnly d [] } fun m => (clearPredictor m, 0)

end Sys2Proof.Machine
end

