-- ==== Sys2Proof/Machine/Range.lean ====
section
/-!
DEFINITION. The commands of the CACHE, LINK and PORT groups (R635 to R649, R677 to R681).
-/

namespace Sys2Proof.Machine

open Sys2Proof

/-! ### Ranges (R636 to R642) -/

/-- Whether a line lies in a range of folios that the device serves as primary (R636). -/
def inRange (m : M) (base top : Nat) (l : Line) : Bool :=
  decide (base ≤ (folioOf l).toNat) && decide ((folioOf l).toNat ≤ top) && primaryFor m l
/-- The lines of a range with a valid sector, or with a Dirty one. -/
def rangeLines (m : M) (base top least : Nat) : List Line :=
  (tagList m).flatMap fun kv =>
    if kv.2.mirrorFolio then []
    else ((List.range 32).filter fun k => decide (least ≤ kv.2.sector k) && inRange m base top (keyLine kv k)).map (keyLine kv)
/-- The lines of a range that agents hold. -/
def rangeHeld (m : M) (base top : Nat) : List Line :=
  (m.coh.dir.filter fun kv => kv.2.live && inRange m base top kv.2.lineTag).map (·.2.lineTag)
/-- The recall of one line: a FLUSH_LINE or an INVAL_LINE of the command's own. -/
def recallReq (m : M) (op : Op) (l : Line) (id : Nat) : Req :=
  ⟨op, .hpa, 0, 0, l, 0, false, 0, 0, true, 0, m.now, 0, [], id, true, none, false, false⟩
/-- Starts the recalls of a command and counts them. -/
def recallLines (e : Env) (m : M) (op : Op) (ls : List Line) (id : Nat) : M :=
  ls.foldl (fun m l => arrive e m (recallReq m op l id))
    (m.updCmd id fun a => { a with counts := listAdd a.counts [0, 0, ls.length, 0] })
/-- Whether a recall of a command is still open. -/
def recalling (m : M) (id : Nat) : Bool :=
  (m.coh.waiting.any fun r => !r.op.host && r.cmd == id) || (m.coh.txns.any fun t => !t.req.op.host && t.req.cmd == id)
    || ((m.coh.galley ++ m.coh.staging).any fun g => g.waiters.any fun w => w.cmd == id)

/-- The lines of a range that a reservation slot is armed on: INVAL_RANGE clears those slots too (Table 5.6). -/
def rangeSlots (m : M) (base top : Nat) : List Line :=
  (List.range 16).flatMap fun x => (List.range 8).filterMap fun k =>
    let s := m.slot x k
    if s.armed && inRange m base top s.line then some s.line else none
/-- Whether a line of an INVAL_RANGE must wait: for the transaction, the writes and the requests that came first (R192, R639), for the
guard of a reservation (R260), or for its slice to wake (R78). -/
def invalBusy (m : M) (l : Line) : Bool :=
  (m.txnOf l).isSome || (m.galleyOf l).isSome || (m.coh.staging.any fun g => g.line == l) || (m.coh.waiting.any fun r => r.line == l)
    || (guardOn m l).isSome || !sliceReady m (sliceOf l)
/-- One line of an INVAL_RANGE: it becomes Invalid without a writeback, and every slot on it is cleared (R639, Table 5.6). -/
def invalOne (e : Env) (m : M) (id : Nat) (l : Line) : M :=
  let was := sectorOf e m l
  let m := clearSlots (dropFill m l) (sliceOf l) true fun s => s.line == l
  let m := if was = 0 then m else setSector e m l false 0
  let m := if 2 ≤ was then mirRelease e m l else m
  m.updCmd id fun a => { a with todo := a.todo.erase l, counts := listAdd a.counts [bit (was != 0), bit (decide (2 ≤ was)), 0, 0] }
/-- The lines of an INVAL_RANGE that wait for nothing are done; a stopped slice is woken for those that remain in it. -/
def invalLines (e : Env) (m : M) (id : Nat) : M :=
  match m.acceptedCmd id with
  | none => m
  | some a =>
    a.todo.foldl (fun m l =>
      let m := knock e m (sliceOf l)
      if invalBusy m l then m else invalOne e m id l) m

/-- The arguments of the two range commands. -/
def rangeBad (d : Desc) : Bool :=
  decide (2 ≤ descArg d 8 1) || decide (2 ^ 40 ≤ descArg d 16 8) || decide (2 ^ 40 ≤ descArg d 24 8)
    || decide (descArg d 24 8 < descArg d 16 8) || !descOnly d [(8, 1), (12, 4), (16, 16)]
/-- FLUSH_RANGE. -/
def execFlushRange (d : Desc) (s : State) : Host.Outcome State Fault Refusal :=
  act s fun e m =>
    let base := descArg d 16 8
    let top := descArg d 24 8
    commandLater e m d { opcode := 0x0400, badArg := rangeBad d } (descArg d 12 4) base top (fun _ => 0) fun m id =>
      let m := sweepLookups e (flushLines e m (inRange m base top) 5)
      let m := m.updCmd id fun a => { a with todo := rangeLines m base top 2 }
      if descArg d 8 1 = 1 then recallLines e m .recallFlush (rangeHeld m base top) id else m
/-- INVAL_RANGE. -/
def execInvalRange (d : Desc) (s : State) : Host.Outcome State Fault Refusal :=
  act s fun e m =>
    let base := descArg d 16 8
    let top := descArg d 24 8
    commandLater e m d { opcode := 0x0401, badArg := rangeBad d } (descArg d 12 4) base top (fun _ => 0) fun m id =>
      let held := if descArg d 8 1 = 1 then rangeHeld m base top else []
      let m := sweepLookups e (flushLines e m (inRange m base top) 5)
      let m := recallLines e m .recallInval held id
      let ls := (rangeLines m base top 1).filter fun l => !held.contains l
      let slots := ((rangeSlots m base top).filter fun l => !held.contains l && !ls.contains l).dedup
      invalLines e (m.updCmd id fun a => { a with todo := ls ++ slots }) id
/-- DRAIN_START: as MODE_SET of DRAIN, and then the wait for its end (R641). -/
def execDrainStart (d : Desc) (s : State) : Host.Outcome State Fault Refusal :=
  act s fun e m =>
    commandLater e m d { opcode := 0x0402, badArg := !descOnly d [(12, 4)] } (descArg d 12 4) 0 0 (fun _ => 0) fun m _ =>
      changeModes e m 0x100 0
/-- DRAIN_STATUS. -/
def execDrainStatus (d : Desc) (s : State) : Host.Outcome State Fault Refusal :=
  run s fun e m => whenAlive m fun m =>
    command e m d { opcode := 0x0403, any := true, badArg := !descOnly d [] } fun m =>
      (m, resAt 8 (dirtyPrimary m).length ||| resAt 16 m.mode.drainedSince ||| resAt 24 m.modeActive.toNat
        ||| resAt 26 (bit m.twin.drainByPair + 2 * bit (drainClean m)))

/-- The final results of a range command or a drain. -/
def rangeResult (a : Accepted) : BitVec 448 :=
  if a.opcode == 0x0402 then resAt 8 (a.counts.getD 0 0)
  else resAt 8 (a.counts.getD 0 0) ||| resAt 12 (a.counts.getD 1 0) ||| resAt 16 (a.counts.getD 2 0)
/-- Whether a range command or a drain has done its work, and the status it then ends with. -/
def rangeDone (e : Env) (m : M) (a : Accepted) : Option Nat :=
  if a.opcode == 0x0400 then
    if recalling m a.id || a.todo.any fun l => decide (2 ≤ sectorOf e m l) then none
    else some (if a.counts.getD 1 0 = 0 then 0 else 0x1A)
  else if a.opcode == 0x0401 then (if recalling m a.id || !a.todo.isEmpty then none else some 0)
  else if a.opcode == 0x0402 then (if drainClean m then some 0 else none)
  else none
/-- RANGE_CMD_COMPLETE: the work of a FLUSH_RANGE, an INVAL_RANGE or a DRAIN_START has ended. -/
def execRangeCmdComplete (id : Nat) (s : State) : Host.Outcome State Fault Refusal :=
  act s fun e m =>
    let m := match m.acceptedCmd id with
      | some a => if a.opcode == 0x0401 then invalLines e m id else m
      | none => m
    match m.acceptedCmd id with
    | none => m
    | some a =>
      match rangeDone e m a with
      | none => m
      | some status => finishCmd e m id status (rangeResult a)
/-- RANGE_CMD_LIMIT: the limit of such a command passes first; what it has not reached stays as it is. -/
def execRangeCmdLimit (id : Nat) (s : State) : Host.Outcome State Fault Refusal :=
  act s fun e m =>
    match m.acceptedCmd id with
    | none => m
    | some a =>
      match a.deadline with
      | none => m
      | some t =>
        if !(a.opcode == 0x0400 || a.opcode == 0x0401 || a.opcode == 0x0402) || (rangeDone e m a).isSome
            || m.jpc.fw != .running then m
        else
          let m := elapseTo e m t
          let m := m.setCoh fun c => { c with waiting := c.waiting.filter fun r => r.op.host || r.cmd != id }
          finishCmd e m id 0x18 (rangeResult a)

/-! ### LINK (R643 to R649) -/

/-- The link that a descriptor names in byte 8. -/
def linkArg (d : Desc) : Option Lnk := Lnk.ofField (descArg d 8 1)
/-- A link of a unit that the variant lacks. -/
def linkAbsent (e : Env) (l : Option Lnk) : Bool := l == some .ckl && !e.fuse.variant.ckl
/-- LINK_STATUS. -/
def execLinkStatus (d : Desc) (s : State) : Host.Outcome State Fault Refusal :=
  run s fun e m => whenAlive m fun m =>
    let link := linkArg d
    command e m d { opcode := 0x0500, any := true, early := true, absent := linkAbsent e link
                    badArg := link.isNone || !descOnly d [(8, 1)] } fun m =>
      match link with
      | none => (m, 0)
      | some l =>
        let x := m.link l
        let counters := (List.range 6).foldl (fun r k => r ||| resAt (16 + 4 * k) (linkView e m l (l.base + 2 + k)).toNat) (0 : BitVec 448)
        (m, resAt 8 (linkStat x).toNat ||| resAt 12 (rd e m (rLinkCfg l)).toNat ||| counters ||| resAt 40 x.rxFailed.toNat
          ||| resAt 44 x.txFailed.toNat ||| resAt 48 x.winBad.length)

/-- The conflicts and the busy case of R647. -/
def linkBlocks (e : Env) (m : M) (l : Lnk) (full : Bool) : List Nat :=
  let ckl := l == .ckl
  let paired := m.twin.st == .hello || m.twin.st == .shed || m.twin.st == .paired || m.twin.st == .releasing
  (if ckl && full && paired then [8] else []) ++ (if ckl && linkFenced e m l then [9] else [])
    ++ (if linkFenced e m l || holdDown e m l || (!full && (m.link l).st == .down) then [0xA] else [])
def linkBusy (m : M) (l : Lnk) : Bool :=
  match (m.link l).st with
  | .retrain | .trainEq | .align | .initCredit => true
  | _ => false
/-- A command waits for its link. -/
def awaitLink (m : M) (l : Lnk) (id : Nat) : M := m.setLink l { m.link l with cmds := (m.link l).cmds ++ [id] }
/-- LINK_RETRAIN of kind RETRAIN. -/
def execLinkRetrain (d : Desc) (s : State) : Host.Outcome State Fault Refusal :=
  act s fun e m =>
    let link := linkArg d
    let l := link.getD .hpa
    commandLater e m d { opcode := 0x0501, absent := linkAbsent e link
                         badArg := link.isNone || descArg d 9 1 != 0 || !descOnly d [(8, 2)]
                         blocks := linkBlocks e m l false, busy := linkBusy m l } 0 0 0 (fun _ => 0) fun m id =>
      let m := awaitLink m l id
      if (m.link l).st == .active then enterRetrain e m l else m
/-- LINK_RETRAIN of kind FULL: hold_down for 10 µs (R646). -/
def execLinkRetrainFull (d : Desc) (s : State) : Host.Outcome State Fault Refusal :=
  act s fun e m =>
    let link := linkArg d
    let l := link.getD .hpa
    commandLater e m d { opcode := 0x0501, absent := linkAbsent e link
                         badArg := link.isNone || descArg d 9 1 != 1 || !descOnly d [(8, 2)]
                         blocks := linkBlocks e m l true, busy := linkBusy m l } 100 1 0 (fun _ => 0) fun m id =>
      let was := (m.link l).st
      let m := linkDown e (setHoldDown e m l true) l 0xC
      let m := match l.host with
        | some p => if was.up then m else hostEvent e m p
        | none => m
      awaitLink (m.setLink l { m.link l with fullHold := true, downReason := 0xC }) l id
/-- FULL_RETRAIN_HOLD_END: the 10 µs are over and the link may leave DOWN. -/
def execFullRetrainHoldEnd (l : Lnk) (s : State) : Host.Outcome State Fault Refusal :=
  act s fun e m =>
    let x := m.link l
    if !x.fullHold then m
    else
      let start := (m.jpc.accepted.find? fun a => x.cmds.contains a.id && a.base == 1).map (·.start)
      let m := match start with
        | some t => elapseTo e m (t + 500)
        | none => m
      let m := m.setLink l { m.link l with fullHold := false }
      if linkFenced e m l then m else setHoldDown e m l false
/-- LINK_CMD_TIMEOUT: the link is not ACTIVE 100 ms after the response; it keeps training. -/
def execLinkCmdTimeout (l : Lnk) (s : State) : Host.Outcome State Fault Refusal :=
  act s fun e m =>
    let full := m.jpc.accepted.filter fun a => (m.link l).cmds.contains a.id && a.base == 1
    match full.head?.bind (·.deadline) with
    | none => m
    | some t =>
      let m := elapseTo e m t
      finishLink e m l 0x18 fun id => full.any fun a => a.id == id && a.deadline.any fun t => decide (t ≤ m.now)
/-- LINK_WIDTH. -/
def execLinkWidth (d : Desc) (s : State) : Host.Outcome State Fault Refusal :=
  act s fun e m =>
    let link := linkArg d
    let l := link.getD .hpa
    let v := descArg d 9 1
    commandLater e m d { opcode := 0x0502, absent := linkAbsent e link
                         badArg := link.isNone || v == 0 || decide (groupCount l.allGroups < v) || !descOnly d [(8, 2)]
                         blocks := linkBlocks e m l false, busy := linkBusy m l } 0 0 0 (fun _ => 0) fun m id =>
      let m := setWidthMax e m l v
      if (m.link l).st == .retrain then awaitLink m l id else finishCmd e m id 0 (linkResult (m.link l))
/-- LINK_ERR_POLICY. -/
def execLinkErrPolicy (d : Desc) (s : State) : Host.Outcome State Fault Refusal :=
  act s fun e m =>
    let link := linkArg d
    let l := link.getD .hpa
    let v := descArg d 10 2
    command e m d { opcode := 0x0503, absent := linkAbsent e link
                    badArg := link.isNone || v == 0 || decide (4096 ≤ v) || !descOnly d [(8, 1), (10, 2)] } fun m =>
      (setThreshold e m l v, resAt 8 (threshold e m l))

/-! ### PORT (R677 to R681, R434 to R441) -/

def portArg (d : Desc) : Option HPort := match descArg d 8 1 with | 0 => some .hpa | 1 => some .hpb | _ => none
/-- PORT_RECOVER (R216, R678). -/
def execPortRecover (d : Desc) (s : State) : Host.Outcome State Fault Refusal :=
  act s fun e m =>
    let port := portArg d
    let p := port.getD .hpa
    let ms := descArg d 10 2
    let inWindow := match (m.port p).window with
      | some t => decide (m.now ≤ t + 50000)
      | none => false
    let legal := inWindow && (m.port p).interval.isNone && !linkFenced e m p.lnk
    commandLater e m d { opcode := 0x0D00, badArg := port.isNone || ms == 0 || decide (100 < ms) || !descOnly d [(8, 1), (10, 2)]
                         blocks := if legal then [] else [0xA] } 0 0 0 (fun _ => 0) fun m id =>
      recoverCheck e (m.setPort p { m.port p with
        window := none, interval := some (m.now, ms * 50000, (heldLines m p).length, id) }) p
/-- PORT_FENCE of kind link. -/
def execPortFenceLink (d : Desc) (s : State) : Host.Outcome State Fault Refusal :=
  act s fun e m =>
    let link := Lnk.ofField (descArg d 9 1)
    command e m d { opcode := 0x0D01, absent := linkAbsent e link
                    badArg := link.isNone || descArg d 8 1 != 0 || !descOnly d [(8, 2)] } fun m =>
      (fenceAny e m (link.getD .hpa), 0)
/-- PORT_FENCE of kind agent (R211, R212). -/
def execPortFenceAgent (d : Desc) (s : State) : Host.Outcome State Fault Refusal :=
  act s fun e m =>
    let a := descArg d 10 1
    command e m d { opcode := 0x0D01, badArg := decide (64 ≤ a) || descArg d 8 1 != 1 || !descOnly d [(8, 1), (10, 1)] } fun m =>
      (fenceAgent e m (BitVec.ofNat 6 a) true, 0)
/-- The fence of a link ends, and with it those of the port's agents (R440). -/
def unfenceLink (e : Env) (m : M) (l : Lnk) : M :=
  if !linkFenced e m l then m
  else
    let m := wr e m (rViolStat l) (rd e m (rViolStat l) &&& ~~~0x4000)
    let m := m.setLink l { m.link l with violTicks := [] }
    match l.host with
    | some .hpa => wr e m rFenceLo 0
    | some .hpb => wr e m rFenceHi 0
    | none => setHoldDown e m l false
/-- PORT_UNFENCE of kind link. -/
def execPortUnfenceLink (d : Desc) (s : State) : Host.Outcome State Fault Refusal :=
  act s fun e m =>
    let link := Lnk.ofField (descArg d 9 1)
    command e m d { opcode := 0x0D02, absent := linkAbsent e link
                    badArg := link.isNone || descArg d 8 1 != 0 || !descOnly d [(8, 2)] } fun m =>
      (unfenceLink e m (link.getD .hpa), 0)
/-- PORT_UNFENCE of kind agent; a fenced port keeps the fences of its agents (R441). -/
def execPortUnfenceAgent (d : Desc) (s : State) : Host.Outcome State Fault Refusal :=
  act s fun e m =>
    let n := descArg d 10 1
    let a : Agent := BitVec.ofNat 6 n
    command e m d { opcode := 0x0D02, badArg := decide (64 ≤ n) || descArg d 8 1 != 1 || !descOnly d [(8, 1), (10, 1)]
                    blocks := if linkFenced e m (agentPort a).lnk then [0xA] else [] } fun m =>
      (wr e m (fenceReg a) (rd e m (fenceReg a) &&& ~~~((1 : Word) <<< (a.toNat % 32))), 0)
/-- AGENT_MAP. -/
def execAgentMap (d : Desc) (s : State) : Host.Outcome State Fault Refusal :=
  run s fun e m => whenAlive m fun m =>
    let port := portArg d
    let p := port.getD .hpa
    let query := descArg d 9 1
    command e m d { opcode := 0x0D03, badArg := port.isNone || decide (2 ≤ query) || !descOnly d [(8, 2), (12, 4)] } fun m =>
      (if query = 1 then m else m.setPort p { m.port p with agentMap := BitVec.ofNat 32 (descArg d 12 4) },
        resAt 8 (m.port p).agentMap.toNat)

end Sys2Proof.Machine
end

