-- ==== Sys2Proof/Machine/Boot.lean ====
section
/-!
DEFINITION. The boot ROM, the images in the flash and the FW group of commands (R587 to R599, R602, R603, R671 to R674).
-/

namespace Sys2Proof.Machine

open Sys2Proof

/-! ### Boot records and images -/

def BootRecord.valid (r : BootRecord) (slot : Bool) : Bool := if slot then r.valid1 else r.valid0
def BootRecord.setValid (r : BootRecord) (slot v : Bool) : BootRecord :=
  if slot then { r with valid1 := v } else { r with valid0 := v }
/-- Each rewrite of the boot record goes to the other copy with the next generation (R589). -/
def writeRecord (m : M) (f : BootRecord → BootRecord) : M :=
  m.setJpc fun j => { j with
    record := { f j.record with generation := j.record.generation + 1 }, recordCopy := !j.recordCopy }
/-- The fail cause of an image: the signature checks run only where the fuse asks for them (R591). -/
def imageCause (f : Fuses) (cause : BitVec 4) : BitVec 4 :=
  if !f.sigRequired && (cause == 4 || cause == 5) then 0 else cause

/-- What the boot ROM takes from the SFDP tables: 1-4-4 when advertised, otherwise 1-1-4, otherwise 1-1-1 (R587). -/
def sfdpTaken (t : SfdpTables) : Sfdp :=
  if t.quad144 then ⟨.r144, t.dummy144, t.fourByte, t.erase⟩
  else if t.quad114 then ⟨.r114, t.dummy114, t.fourByte, t.erase⟩
  else ⟨.r111, t.dummy111, t.fourByte, t.erase⟩
/-- The fail cause of a slot's image: FLASH for both where the SFDP tables cannot be read (Table 12.10). -/
def slotCause (f : Fuses) (b : BootFacts) (slot : Bool) : BitVec 4 :=
  if b.sfdp.isNone then 1 else imageCause f (if slot then b.cause1 else b.cause0)

/-- The image of a slot starts, and the watchdog with it (step 5 of R592, R601). -/
def startImage (e : Env) (m : M) (b : BootFacts) (slot : Bool) : M :=
  m.setJpc fun j => { j with
    fw := .running, slot := slot, version := if slot then b.version1 else b.version0, versions := [b.version0, b.version1]
    sigChecked := e.fuse.sigRequired, trialRun := j.record.trial, wdogTick := m.now, daRecord := b.record, session := none }
/-- Steps 1 to 6 of R592; answers whether an image started. -/
def bootImage (e : Env) (m : M) (b : BootFacts) : M × Bool :=
  let m := m.setJpc fun j => { j with sfdp := b.sfdp.map sfdpTaken }
  let r := m.jpc.record
  let m :=
    if !r.trial then m
    else if 3 ≤ r.trialBoots then writeRecord m fun r => { r with active := !r.active, trial := false, rolledBack := true }
    else writeRecord m fun r => { r with trialBoots := r.trialBoots + 1 }
  let slot := m.jpc.record.active
  let cause := slotCause e.fuse b
  if cause slot == 0 then (startImage e m b slot, true)
  else
    let m := writeRecord (m.setJpc fun j => { j with failCause := cause slot }) fun r => r.setValid slot false
    let recover (m : M) : M := m.setJpc fun j => { j with fw := .recovery, session := none, trialRun := false, sigChecked := false }
    if !m.jpc.record.valid !slot then (recover m, false)
    else if cause (!slot) == 0 then
      (startImage e (writeRecord m fun r => { r with active := !slot, trial := false }) b !slot, true)
    else (recover (m.setJpc fun j => { j with failCause := cause !slot }), false)

/-! ### FW_READY (R602, R603) -/

/-- Every proof run that a restart found ends: a fault it has found keeps its verdict FAIL. -/
def abortRuns (e : Env) (m : M) : M :=
  let runs := m.proof.runs.filter fun r => r.state != 2
  let m := runs.foldl (fun m r => stopRun e m r (if r.verdict == 1 then 1 else 2)) m
  if runs.isEmpty then m else proofReleased e (pruneRuns m)
/-- Every command that was taken and has not received its final status is answered ABORTED_RESTART. -/
def abortCommands (e : Env) (m : M) : M :=
  let m := match m.prf.snapCmd with
    | some c => postRsp e (m.setPrf fun p => { p with snapCmd := none }) c.desc 0x0901 0x17 c.prived 0
    | none => m
  let m := m.jpc.accepted.foldl (fun m a => endAccepted e m a 0x17 0) m
  let m := m.setCoh fun c => { c with syncs := [] }
  [Lnk.hpa, .hpb, .mpa, .mpb, .ckl].foldl (fun m l => m.setLink l { m.link l with cmds := [] }) m
/-- The firmware takes what the LOG ring holds. -/
def takeLogs (e : Env) : Nat → M → M
  | 0, m => m
  | n + 1, m => if m.ringUsed 17 = 0 then m else takeLogs e n (takeLog e m)
/-- The firmware comes back: the commands it had lost, FW_READY, and then what it owes and finds in its rings. -/
def fwReady (e : Env) (m : M) : M :=
  let m := abortRuns e (abortCommands e m)
  let j := m.jpc
  let m := postEvt e m 0x0002 1
    (BitVec.ofNat 352 (j.version.toNat + bit j.slot * 2 ^ 32 + bit j.trialRun * 2 ^ 40 + j.restartCause.toNat * 2 ^ 48))
  let m := if j.pairAborted then pairEvt e (m.setJpc fun j => { j with pairAborted := false }) 0x0023 2 else m
  takeLogs e 2048 ((List.range 16).foldl (fun m x => emptyRing m (22 + x)) m)

/-! ### What a restart within bring-up does again (R893) -/

/-- Phase 3 starts, or starts again: the timings of every channel that is neither ACTIVE nor FAILED, and its training (R449, R450, R454,
R876, R893). -/
def startTraining (e : Env) (m : M) : M :=
  let fresh := (List.range 8).filter fun d => dacPresent e d && ((m.dac d).st == .reset || (m.dac d).st == .training)
  let m := match m.jpc.daRecord with
    | some r => fresh.foldl (fun m d => (List.range 4).foldl (fun m k =>
        writeUnit e m { path := .jpc } (rDac d (0xC + k)) (r.extractLsb' (32 * k) 32)) m) m
    | none => log e m 0x0405 srcJpc 0 0 0
  fresh.foldl (fun m d => m.setDac d { m.dac d with st := .training }) m
/-- Phase 6 starts on a device with a Crekar link: one attempt of 150 ms (R890). -/
def startPairing (e : Env) (m : M) : M :=
  startAttempt e (m.setLink .ckl { m.link .ckl with bringupHold := false }) 0 150
/-- The firmware resumes bring-up at the first phase that is not complete. -/
def resumeBringup (e : Env) (m : M) (aborted : Bool) : M :=
  if m.boot.phase = 3 then startTraining e m
  else if m.boot.phase = 6 && aborted then startPairing e m
  else m

/-- BOOT_ROM: one start of the JPC, at phase 2 of bring-up or at a Jupor restart. -/
def execBootRom (b : BootFacts) (s : State) : Host.Outcome State Fault Refusal :=
  act s fun e m =>
    if m.jpc.fw == .restarting || (m.jpc.fw == .rom && m.boot.phase == 2 && !m.boot.stopped) then
      let aborted := m.jpc.pairAborted
      let (m, ok) := bootImage e m b
      if ok then resumeBringup e (fwReady e m) aborted else m
    else m

/-! ### Staging and commit (R594 to R599, R671 to R674) -/

/-- The slot from which the running image was not loaded; slot 0 in RECOVERY (R593). -/
def stagingSlot (m : M) : Bool := m.jpc.fw != .recovery && !m.jpc.slot
/-- The flash offset of a slot (Table 12.8). -/
def slotBase (slot : Bool) : Nat := if slot then 0x500000 else 0x100000
/-- The path that owns a CMD ring (Table 12.1). -/
def ringPath (r : Nat) : Path := if r < 5 then .hpa else if r < 10 then .hpb else if r = 10 then .smbus else .jtag
/-- Erased flash reads as ones. -/
def flashAt (m : M) (a : Nat) : BitVec 8 := Tab.get (fun _ => 0xFF) m.jpc.flash a
/-- The bytes of a chunk reach the staging slot. -/
def putFlash (m : M) (base : Nat) (bytes : List (BitVec 8)) : M :=
  m.setJpc fun j => { j with
    flash := (bytes.zipIdx).foldl (fun t x => Tab.put (fun _ => 0xFF) t (base + x.2) x.1) j.flash }

/-- FW_STAGE.  What the firmware has programmed since the last chunk is open (log entry 34). -/
def execFwStage (d : Desc) (s : State) : Host.Outcome State Fault Refusal :=
  run s fun e m => whenAlive m fun m =>
    let path := ringPath d.ring
    let off := descArg d 8 4
    let len := descArg d 12 2
    let mine := m.jpc.session.any fun x => x.path == path
    let foreign := m.jpc.session.isSome && !mine
    let next := ((m.jpc.session.filter fun x => x.path == path).map (·.next)).getD 0
    let left := match m.jpc.session with
      | some x => if off = 0 then 0 else x.buffered - Config.activity m.free
      | none => 0
    let c : Cmd := { opcode := 0x0B00, recovery := true
                     badArg := len == 0 || decide (48 < len) || decide (0x300000 < off + len)
                       || (mine && off != 0 && off != next) || !descOnly d [(8, 6), (16, len)]
                     blocks := if foreign || (m.jpc.session.isNone && off != 0) then [0xD] else []
                     busy := decide (65536 < left + len) }
    let m := if served m d c && mine then { m with free := m.free + 1 } else m
    command e m d c fun m =>
      let slot := stagingSlot m
      let m := if off = 0 then writeRecord m fun r => r.setValid slot false else m
      let m := putFlash m (slotBase slot + off) ((List.range len).map fun k => BitVec.ofNat 8 (descArg d (16 + k) 1))
      (m.setJpc fun j => { j with session := some ⟨path, off + len, left + len⟩ }, resAt 8 (off + len))

/-- FW_COMMIT of kind TRIAL, and with a kind that Table 13.4 does not list. -/
def execFwCommitTrial (d : Desc) (s : State) : Host.Outcome State Fault Refusal :=
  run s fun e m => whenAlive m fun m =>
    let mine := m.jpc.session.any fun x => x.path == ringPath d.ring
    commandLater e m d { opcode := 0x0B01, recovery := true, badArg := descArg d 8 1 != 1 || !descOnly d [(8, 1)]
                         blocks := if mine then [] else [0xD] } 0 0 0 (fun _ => 0) fun m _ => m
/-- FW_VERIFY_DONE: the staged image has been read back and verified. -/
def execFwVerifyDone (cause : BitVec 4) (s : State) : Host.Outcome State Fault Refusal :=
  run s fun e m => whenAlive m fun m =>
    match m.jpc.accepted.find? fun a => a.opcode == 0x0B01 with
    | none => m
    | some a =>
      if m.jpc.fw != .running && m.jpc.fw != .recovery then m
      else
        let cause := imageCause e.fuse cause
        let slot := stagingSlot m
        let base := slotBase slot + 12
        let version : Word := flashAt m (base + 3) ++ flashAt m (base + 2) ++ flashAt m (base + 1) ++ flashAt m base
        let m := m.setJpc fun j => { j with session := j.session.map fun x => { x with buffered := 0 } }
        if cause == 0 then
          let m := writeRecord m fun r => { r.setValid slot true with active := slot, trial := true, trialBoots := 0 }
          let m := m.setJpc fun j => { j with session := none, versions := j.versions.set (bit slot) version }
          endAccepted e m a 0 0
        else endAccepted e (m.setJpc fun j => { j with failCause := cause }) a 0x11 (resAt 8 cause.toNat)
/-- FW_COMMIT of kind FINAL. -/
def execFwCommitFinal (d : Desc) (s : State) : Host.Outcome State Fault Refusal :=
  run s fun e m => whenAlive m fun m =>
    command e m d { opcode := 0x0B01, badArg := descArg d 8 1 != 2 || !descOnly d [(8, 1)]
                    blocks := if m.jpc.trialRun then [] else [0xE] } fun m =>
      ((writeRecord m fun r => { r with trial := false }).setJpc fun j => { j with trialRun := false }, 0)
/-- A command whose response comes before a restart. -/
def thenRestart (e : Env) (m : M) (d : Desc) (c : Cmd) (f : M → M) : M :=
  let ok := served m d c && (refusal m d c (privileged m d)).isNone
  let m := command e m d c fun m => (f m, 0)
  if ok then restartJpc e m 1 else m
/-- FW_RESTART. -/
def execFwRestart (d : Desc) (s : State) : Host.Outcome State Fault Refusal :=
  act s fun e m => thenRestart e m d { opcode := 0x0B02, recovery := true, badArg := !descOnly d [] } id
/-- FW_ROLLBACK. -/
def execFwRollback (d : Desc) (s : State) : Host.Outcome State Fault Refusal :=
  act s fun e m =>
    thenRestart e m d { opcode := 0x0B03, badArg := !descOnly d []
                        blocks := if m.jpc.record.valid (stagingSlot m) then [] else [0xE] } fun m =>
      writeRecord m fun r => { r with active := stagingSlot m, trial := false }

end Sys2Proof.Machine
end

