-- ==== Sys2Proof/Machine/Requests.lean ====
section
/-!
DEFINITION. The messages that arrive on the host ports and on the memory ports (chapters 4, 5, 6 and 8), but for the configuration
accesses.
-/

namespace Sys2Proof.Machine

open Sys2Proof

/-! ### Requests of agents (R188, R408) -/

/-- A request without data. -/
def plainRequest (s : State) (h : ReqHdr) (op : Op) : Host.Outcome State Fault Refusal :=
  act s fun e m => delivered e m h.port.lnk 0 0 fun m => request e m h op fullMask 0 fun m _ => m
/-- A write of some bytes of a line, with `n` data slots. -/
def writeRequest (s : State) (h : ReqHdr) (op : Op) (n : Nat) (mask : Mask) (data : Data) : Host.Outcome State Fault Refusal :=
  act s fun e m => delivered e m h.port.lnk 0 n fun m => request e m h op mask data fun m _ => m

def execRdShared (h : ReqHdr) (s : State) : Host.Outcome State Fault Refusal := plainRequest s h .rdShared
def execRdOwn (h : ReqHdr) (s : State) : Host.Outcome State Fault Refusal := plainRequest s h .rdOwn
def execRdOnce (h : ReqHdr) (s : State) : Host.Outcome State Fault Refusal := plainRequest s h .rdOnce
def execRdNt (h : ReqHdr) (s : State) : Host.Outcome State Fault Refusal := plainRequest s h .rdNt
def execRsvLd (h : ReqHdr) (s : State) : Host.Outcome State Fault Refusal := plainRequest s h .rsvLd
def execEvictClean (h : ReqHdr) (s : State) : Host.Outcome State Fault Refusal := plainRequest s h .evictClean
def execFlushLine (h : ReqHdr) (s : State) : Host.Outcome State Fault Refusal := plainRequest s h .flushLine
def execInvalLine (h : ReqHdr) (s : State) : Host.Outcome State Fault Refusal := plainRequest s h .invalLine
def execBarrierC (h : ReqHdr) (s : State) : Host.Outcome State Fault Refusal := plainRequest s h .barrier
def execWrLine (h : ReqHdr) (data : Data) (s : State) : Host.Outcome State Fault Refusal := writeRequest s h .wrLine 8 fullMask data
def execEvictDirty (h : ReqHdr) (data : Data) (s : State) : Host.Outcome State Fault Refusal :=
  writeRequest s h .evictDirty 8 fullMask data
def execWrPart (h : ReqHdr) (mask : Mask) (data : Data) (s : State) : Host.Outcome State Fault Refusal :=
  writeRequest s h .wrPart (1 + popCount h.slotMap) mask data
def execWrNt (h : ReqHdr) (mask : Mask) (data : Data) (s : State) : Host.Outcome State Fault Refusal :=
  writeRequest s h .wrNt (1 + popCount h.slotMap) mask data
def execCndSt (h : ReqHdr) (mask : Mask) (data : Data) (s : State) : Host.Outcome State Fault Refusal :=
  writeRequest s h .cndSt (1 + popCount h.slotMap) mask data
/-- The operand slots of an ATOM travel as its data: slot 0 in the low 128 bits, slot 1 above it (Table 8.5). -/
def execAtom (h : ReqHdr) (slot0 slot1 : BitVec 128) (s : State) : Host.Outcome State Fault Refusal :=
  writeRequest s h .atom (if atomOp h.opf = 2 then 2 else 1) (atomMask h.opf) ((slot1 ++ slot0 : BitVec 256).setWidth 1024)

/-! ### Answers to snoops (R194, R949) -/

def execSnpRspI (r : SnpRsp) (s : State) : Host.Outcome State Fault Refusal :=
  act s fun e m => delivered e m r.port.lnk 1 0 fun m => snoopAnswer e m r .i 0
def execSnpRspS (r : SnpRsp) (s : State) : Host.Outcome State Fault Refusal :=
  act s fun e m => delivered e m r.port.lnk 1 0 fun m => snoopAnswer e m r .s 0
def execSnpRspID (r : SnpRsp) (data : Data) (s : State) : Host.Outcome State Fault Refusal :=
  act s fun e m => delivered e m r.port.lnk 1 8 fun m => snoopAnswer e m r .id data
def execSnpRspSD (r : SnpRsp) (data : Data) (s : State) : Host.Outcome State Fault Refusal :=
  act s fun e m => delivered e m r.port.lnk 1 8 fun m => snoopAnswer e m r .sd data
def execSnpRspEvp (r : SnpRsp) (s : State) : Host.Outcome State Fault Refusal :=
  act s fun e m => delivered e m r.port.lnk 1 0 fun m => snoopAnswer e m r .evp 0

/-! ### GRANT_ACK and PEER_BEACON -/

/-- The host's tag is free and the port forgets what it knew of it. -/
def freeHostTag (m : M) (p : HPort) (tag : Tag) : M :=
  let q := m.port p
  m.setPort p { q with
    outstanding := q.outstanding.filter fun x => x.1 != tag
    voided := q.voided.erase tag, ackAfterEvict := q.ackAfterEvict.erase tag }

/-- GRANT_ACK (R197, R198, R213, R428). -/
def grantAck (e : Env) (m : M) (p : HPort) (tag : Tag) : M :=
  let l := p.lnk
  let q := m.port p
  let late (m : M) (a : Option Agent) : M := violate e (freeHostTag m p tag) l 0x17 a tag 0x38 false true
  if (m.link l).st != .active then m
  else if q.voided.contains tag then late m ((q.outstanding.find? fun x => x.1 == tag).map fun x => x.2.1)
  else if q.ackAfterEvict.contains tag then freeHostTag m p tag
  else
    match m.coh.txns.find? fun t => t.phase == .granted && t.req.port == p && t.req.tag == tag && !t.dropped with
    | some t =>
      if sliceDead m (sliceOf t.req.line) then m
      else if linkFenced e m l || agentFenced e m t.req.agent then late m (some t.req.agent)
      else closeTxn e (freeHostTag m p tag) t.req.line
    | none => if linkFenced e m l then late m none else violate e m l 0x14 none tag 0x38 true true

def execGrantAck (p : HPort) (tag : Tag) (s : State) : Host.Outcome State Fault Refusal :=
  act s fun e m => delivered e m p.lnk 2 0 fun m => grantAck e m p tag

/-- A relayed PEER_BEACON (R401); a link that is not ACTIVE brings none. -/
def execPeerBeaconRx (p : HPort) (b : Beacon) (s : State) : Host.Outcome State Fault Refusal :=
  act s fun e m => if (m.link p.lnk).st != .active then m else delivered e m p.lnk 2 1 fun m => beaconIn e m p b

/-! ### Answers of the memory controllers (R280, R281, R396, R397, R417, R949) -/

def memFind (m : M) (p : MPort) (tag : Tag) : Option MemReq := (m.mem p).outstanding.find? fun r => r.tag == tag

/-- An ERR, or a response taken as one (R397, R417): a read is answered poisoned, a write brings a reset of the port's island. -/
def memErr (e : Env) (m : M) (p : MPort) (r : MemReq) (code : Nat) : M :=
  let m := log e m 0x0301 p.lnk.n (r.tag.setWidth 32) (BitVec.ofNat 32 code) (r.line.setWidth 64)
  if r.write then portReset e m p.lnk
  else
    let m := memTake e m p r
    memReadDone e { m with free := m.free + 2 } r (lostData m) true false

/-- A response of the memory controller; `f` handles one that names an outstanding request. -/
def memAnswer (e : Env) (m : M) (p : MPort) (tag : Tag) (opcode : Nat) (f : MemReq → M) : M :=
  if (m.link p.lnk).st != .active then m
  else
    match memFind m p tag with
    | none => violate e m p.lnk 0x14 none tag opcode true true
    | some r => if sliceDead m (sliceOf r.line) then m else f r

def execMemDataRx (p : MPort) (tag : Tag) (dcount : BitVec 4) (poison : Bool) (data : Data) (s : State) :
    Host.Outcome State Fault Refusal :=
  act s fun e m => delivered e m p.lnk 2 dcount.toNat fun m =>
    memAnswer e m p tag 0x34 fun r =>
      if dcount ≠ 8 then violate e m p.lnk 0x15 none tag 0x34 true true
      else if r.write then violate e (memErr e m p r 0x100) p.lnk 0x16 none tag 0x34 true true
      else memReadDone e (memTake e m p r) r data poison true

def execMemCmpRx (p : MPort) (tag : Tag) (s : State) : Host.Outcome State Fault Refusal :=
  act s fun e m => delivered e m p.lnk 2 0 fun m =>
    memAnswer e m p tag 0x35 fun r =>
      if !r.write then violate e (memErr e m p r 0x100) p.lnk 0x16 none tag 0x35 true true
      else memAck e (memTake e m p r) r

def execMemErrRx (p : MPort) (tag : Tag) (code : BitVec 8) (s : State) : Host.Outcome State Fault Refusal :=
  act s fun e m => delivered e m p.lnk 2 0 fun m =>
    memAnswer e m p tag 0x37 fun r => memErr e m p r code.toNat

end Sys2Proof.Machine
end

