-- ==== Sys2Proof/Machine/Links.lean ====
section
/-!
DEFINITION. The commands of the link layer: flits that arrive, its timers, training, retraining and resets of a port.
-/

namespace Sys2Proof.Machine

open Sys2Proof

/-- A link command acts on a running device. -/
def onLink (s : State) (l : Lnk) (f : Env → M → LinkSt → M) : Host.Outcome State Fault Refusal :=
  act s fun e m => f e m (m.link l)

/-! ### Flits -/

def execPayloadFlitRx (l : Lnk) (flit : BitVec 576) (unc : Bool) (s : State) : Host.Outcome State Fault Refusal :=
  act s fun e m => flitRx e m l flit unc
def execIdleFlitRx (l : Lnk) (flit : BitVec 576) (unc : Bool) (s : State) : Host.Outcome State Fault Refusal :=
  act s fun e m => flitRx e m l flit unc
def execNakRx (l : Lnk) (flit : BitVec 576) (unc : Bool) (s : State) : Host.Outcome State Fault Refusal :=
  act s fun e m => flitRx e m l flit unc
def execRetrainReqRx (l : Lnk) (flit : BitVec 576) (unc : Bool) (s : State) : Host.Outcome State Fault Refusal :=
  act s fun e m => flitRx e m l flit unc
def execInitFlitRx (l : Lnk) (flit : BitVec 576) (unc : Bool) (s : State) : Host.Outcome State Fault Refusal :=
  act s fun e m => flitRx e m l flit unc
/-- RETRAIN_RESYNC: the INIT flit with resync 1 of step 4 (R353). -/
def execRetrainResync (l : Lnk) (flit : BitVec 576) (unc : Bool) (s : State) : Host.Outcome State Fault Refusal :=
  act s fun e m => flitRx e m l flit unc

/-! ### Timers of an ACTIVE link -/

/-- A NAK still pending 1 µs after it was sent is sent again (R331). -/
def execNakResendTimer (l : Lnk) (s : State) : Host.Outcome State Fault Refusal :=
  onLink s l fun e m x =>
    if x.st != .active || !x.nakPending then m else sendNak (elapseTo e m (x.nakTick + 50)) l
/-- The acknowledgement timer reaches 2 µs and starts again; a NAK of the same tick has had the replay (R338). -/
def ackTimer (e : Env) (m : M) (l : Lnk) : M :=
  let x := m.link l
  if x.st != .active || x.replay.isEmpty then m
  else
    let m := elapseTo e m (x.ackTick + 100)
    let x := m.link l
    let m := m.setLink l { x with ackTick := m.now }
    if x.nakReplay == some m.now then m
    else startReplay e (m.setLink l { m.link l with timerReplay := some m.now }) l
def execAckTimerExpiry (l : Lnk) (s : State) : Host.Outcome State Fault Refusal :=
  onLink s l fun e m _ => ackTimer e m l
/-- The replays that the timer starts until tick `due`, or until the fourth without progress enters RETRAIN (R339, R341). -/
def timerReplays (e : Env) (l : Lnk) (due : Nat) (m : M) : M :=
  (List.range 4).foldl (fun m _ =>
    let x := m.link l
    if x.replay.isEmpty || decide (due < x.ackTick + 100) then m else ackTimer e m l) m
/-- Four replays in a row free no flit (R339): those of the timer that are still to come, and the RETRAIN that follows. -/
def execReplayNoProgress (l : Lnk) (s : State) : Host.Outcome State Fault Refusal :=
  onLink s l fun e m x =>
    if x.st != .active || x.replay.isEmpty then m else timerReplays e l (x.ackTick + 400) m
/-- 100 µs without a valid flit (R341): DOWN, unless the timer of R338 has brought the link into RETRAIN before. -/
def execNoFlitTimeout (l : Lnk) (s : State) : Host.Outcome State Fault Refusal :=
  onLink s l fun e m x =>
    if x.st != .active then m
    else
      let m := timerReplays e l (x.lastValid + 5000) m
      if (m.link l).st != .active then m else linkDown e (elapseTo e m (x.lastValid + 5000)) l 3
/-- Invalid flits bring the window's count to the threshold (R357): those that no command has presented are counted here. -/
def execCrcWindow (l : Lnk) (s : State) : Host.Outcome State Fault Refusal :=
  onLink s l fun e m x =>
    if !x.st.up then m
    else
      let n := threshold e m l - x.winBad.length
      let m := bump e m (rLinkCnt l 2) n
      let m := if l == .ckl then m else count e m l.island 5 n none
      let m := m.setLink l { m.link l with
        winBad := (List.range n).map (· + x.rxFlits) ++ x.winBad, rxFlits := x.rxFlits + n }
      linkDown e m l 1

/-! ### Retraining -/

/-- Loss of signal or of lock on a lane of an active group (R352). -/
def execLossOfSignal (l : Lnk) (lane : Fin 24) (s : State) : Host.Outcome State Fault Refusal :=
  onLink s l fun e m x => if x.groups.getLsbD (lane.val / 8) then enterRetrain e m l else m
/-- A group's alignment is lost after three uncorrectable pairs (R322); the number of their uncorrectable codewords is open. -/
def execGroupAlignmentLost (l : Lnk) (g : Fin 3) (s : State) : Host.Outcome State Fault Refusal :=
  onLink s l fun e m x =>
    if x.st != .active || !x.groups.getLsbD g.val then m
    else enterRetrain e
      (countUnc e { m with free := m.free + 1 } l g.val (3 + (Config.lane m.free).toNat % 4)) l
/-- A lane that has not locked within 200 µs is failed and its group inactive (R353). -/
def execLaneLockTimeout (l : Lnk) (lane : Fin 24) (s : State) : Host.Outcome State Fault Refusal :=
  onLink s l fun e m x =>
    if x.st != .retrain || !x.groups.getLsbD (lane.val / 8) then m
    else
      let m := elapseTo e m (x.since + 10000)
      let x := m.link l
      let failed := x.rxFailed ||| ((1 : BitVec 24) <<< lane.val)
      let groups := goodGroups failed x.groups
      let m := m.setLink l { x with rxFailed := failed, groups := groups, aligned := false }
      if groups == 0 then failAttempt e m l else m
/-- An attempt that has taken 1 ms fails (R354). -/
def execRetrainAttemptTimeout (l : Lnk) (s : State) : Host.Outcome State Fault Refusal :=
  onLink s l fun e m x => if x.st != .retrain then m else failAttempt e (elapseTo e m (x.since + 50000)) l
/-- 1 ms ACTIVE after a successful attempt (R355). -/
def execRetrainCountReset (l : Lnk) (s : State) : Host.Outcome State Fault Refusal :=
  onLink s l fun e m x =>
    if x.st != .active || !x.retrained then m
    else
      let m := elapseTo e m (x.since + 50000)
      m.setLink l { m.link l with retrainFails := 0, retrained := false }

/-! ### Training (Table 7.13) -/

/-- Whether the link may leave DOWN: not held, its island running (R74) with a good clock (R348, R889, R106), and the link present. -/
def mayLeaveDown (e : Env) (m : M) (l : Lnk) : Bool :=
  !holdDown e m l && !(m.link l).bringupHold && !(m.link l).fullHold && m.island l.island
    && (l != .ckl || e.fuse.variant.ckl)
def execDownToDetect (l : Lnk) (s : State) : Host.Outcome State Fault Refusal :=
  onLink s l fun e m x =>
    if x.st != .down || !mayLeaveDown e m l then m
    else
      let m := elapseTo e m (x.since + 500)
      m.setLink l { m.link l with st := .detect, since := m.now, rxFailed := 0, txFailed := 0, ran := true }
/-- The transmit presets from which TRAIN_EQ starts (R873). -/
def presets (e : Env) (m : M) (l : Lnk) : Tab (BitVec 19) :=
  (List.range l.lanes).foldl (fun t k => Tab.put (fun _ => 0) t k ((rd e m (l.base + 0x40 + 8 * k)).setWidth 19)) []
def execPartnerDetected (l : Lnk) (groups : BitVec 3) (s : State) : Host.Outcome State Fault Refusal :=
  onLink s l fun e m x =>
    if x.st != .detect || groups &&& l.allGroups == 0 then m
    else m.setLink l { x with
      st := .trainEq, since := m.now, trained := groups &&& l.allGroups, taps := presets e m l, atLimit := [] }
/-- The place of a tap in xxx_LANEm_TXEQ (Table 19.7). -/
def tapField : Fin 3 → Nat × Nat
  | 0 => (0, 6)
  | 1 => (6, 7)
  | 2 => (13, 6)
/-- A partner's request for a tap: taken, or answered "at limit" where it would cross the fused limit, and the tap keeps its value
(R312). -/
def tapRequest (e : Env) (x : LinkSt) (r : TapRequest) : LinkSt :=
  let (lo, n) := tapField r.tap
  let key := (r.lane.val, r.tap.val)
  if fld e.fuse.linkLimit lo n < r.value.toNat then { x with atLimit := key :: x.atLimit.filter (· != key) }
  else
    let old := Tab.get (fun _ => (0 : BitVec 19)) x.taps r.lane.val
    { x with
      atLimit := x.atLimit.filter (· != key)
      taps := Tab.put (fun _ => 0) x.taps r.lane.val ((setFld (old.setWidth 32) lo n r.value.toNat).setWidth 19) }
/-- Every detected lane is trained or failed, after the partner's requests in order (R349). -/
def execTrainEqDone (l : Lnk) (failedRx : BitVec 24) (partner : TrainReport) (s : State) : Host.Outcome State Fault Refusal :=
  onLink s l fun e m x =>
    if x.st != .trainEq then m
    else
      let x := partner.taps.foldl (tapRequest e) x
      let good := goodGroups (failedRx ||| partner.failedTx) x.trained
      let m := m.setLink l { x with rxFailed := failedRx, txFailed := partner.failedTx, trained := good }
      if good == 0 then linkDown e m l 7 else m.setLink l { m.link l with st := .align, since := m.now }
def execTrainEqTimeout (l : Lnk) (s : State) : Host.Outcome State Fault Refusal :=
  onLink s l fun e m x => if x.st != .trainEq then m else linkDown e (elapseTo e m (x.since + 2500000)) l 7
/-- What ALIGN learned of the lanes, as xxx_LANEm_STAT shows it (R309, Table 19.7). -/
def learnLanes (t : Tab (BitVec 6)) (lanes : List LaneLearned) : Tab (BitVec 6) :=
  lanes.foldl (fun t y =>
    Tab.put (fun _ => 0) t y.lane.val (BitVec.ofNat 6 (y.logical.val + 8 * y.group.val + 32 * bit y.inverted))) t
/-- The groups are chosen from those that both ends have trained, within both maximum widths (R350), and the INIT flit follows: into
INIT_CREDIT, or on with a retrain attempt (steps 3 and 4 of R353). -/
def execAlignDone (l : Lnk) (partner : AlignReport) (s : State) : Host.Outcome State Fault Refusal :=
  onLink s l fun e m x =>
    let mine := goodGroups (x.rxFailed ||| x.txFailed) x.trained
    let m := m.setLink l { x with
      partnerMax := partner.width.val + 1, common := mine &&& partner.groups, laneMap := learnLanes x.laneMap partner.lanes }
    let groups := chooseGroups e m l (mine &&& partner.groups)
    match x.st with
    | .align =>
      if groups == 0 then linkDown e m l 6
      else control (m.setLink l { m.link l with st := .initCredit, since := m.now, groups := groups }) l (.init false)
    | .retrain =>
      if groups == 0 then failAttempt e (m.setLink l { m.link l with groups := 0 }) l
      else control (m.setLink l { m.link l with groups := groups, aligned := true }) l (.init true)
    | _ => m.setLink l x
def execAlignTimeout (l : Lnk) (s : State) : Host.Outcome State Fault Refusal :=
  onLink s l fun e m x => if x.st != .align then m else linkDown e (elapseTo e m (x.since + 100000)) l 8
def execInitTimeout (l : Lnk) (s : State) : Host.Outcome State Fault Refusal :=
  onLink s l fun e m x => if x.st != .initCredit then m else linkDown e (elapseTo e m (x.since + 50000)) l 9

/-! ### Port events and resets -/

/-- PORT_EVENT (R214): the link-down or the port-island reset of a host port, with its sweeps. -/
def execPortEvent (p : HPort) (s : State) : Host.Outcome State Fault Refusal :=
  act s fun e m => if (m.link p.lnk).st.up then linkDown e m p.lnk 0xC else hostEvent e m p
/-- PORT_RESET (R902). -/
def execPortReset (l : Lnk) (s : State) : Host.Outcome State Fault Refusal :=
  act s fun e m => portReset e m l
/-- MEMPORT_DOWN (R414): the link-down of a memory port. -/
def execMemportDown (p : MPort) (s : State) : Host.Outcome State Fault Refusal :=
  act s fun e m => if (m.link p.lnk).st.up then linkDown e m p.lnk 0xC else m
/-- MEM_TIMEOUT (R413): no response 10 ms after the request left; one that waits in the port has not left. -/
def execMemTimeout (p : MPort) (tag : Tag) (s : State) : Host.Outcome State Fault Refusal :=
  act s fun e m =>
    match (memFind m p tag).bind fun r => r.sent.map fun t => (r, t) with
    | none => m
    | some (r, t) =>
      let m := elapseTo e m (t + 500000)
      portReset e (log e m 0x0302 p.lnk.n (tag.setWidth 32) 0 (r.line.setWidth 64)) p.lnk

end Sys2Proof.Machine
end

