-- ==== Sys2Proof/Machine/Reset.lean ====
section
/-!
DEFINITION. Cold and warm reset, bring-up to READY, the straps and supplies, and the TAP's own instructions (chapters 20 and 21).
-/

namespace Sys2Proof.Machine

open Sys2Proof

/-! ### What survives (Tables 20.5 and 16.2, R887, R932) -/

/-- The TAP, which no reset of the device touches. -/
def keepTap (a : AccSt) : AccSt :=
  { AccSt.reset with
    tapIr := a.tapIr, jtagAddr := a.jtagAddr, jtagData := a.jtagData, jtagDone := a.jtagDone, jtagAbandoned := a.jtagAbandoned
    tapDr := a.tapDr, boundary := a.boundary }
/-- The device as a cold reset holds it: the slip, the flash and the TAP are kept, and the level of TEST_EN is the board's.  `free` and
`out` are the model's own. -/
def coldState (f : Fuses) (m : M) : M :=
  { M.reset f with
    free := m.free, out := m.out, flits := m.flits, acc := keepTap m.acc
    pins := { Pins.reset with testEn := m.pins.testEn }
    err := { ErrSt.reset with slip := if m.err.degraded then (m.err.slip0.toList ++ m.err.slip).take 8 else m.err.slip }
    jpc := { JpcSt.reset with
      flash := m.jpc.flash, record := m.jpc.record, recordCopy := m.jpc.recordCopy, versions := m.jpc.versions } }

/-- Whether bring-up cannot complete: an XBR or JPC clock has failed, or a slice is lost (R892); neither ends before cold reset. -/
def bringupBlocked (m : M) : Bool := m.isl.clkFail.getLsbD 16 || m.isl.clkFail.getLsbD 30 || !m.proof.sliceLost.isEmpty
/-- Step 5 of R896: everything is reset but the state that Table 20.5 keeps, and a FAILED channel stays FAILED (R496, log entry 121); the
relock of the PLLs follows as phase 1. -/
def warmState (e : Env) (m : M) : M :=
  let r := M.reset e.fuse
  let x := { r with
    now := m.now, free := m.free, out := m.out, flits := m.flits, acc := keepTap m.acc
    pins := { m.pins with ready := false }
    boot := ⟨1, m.now, bringupBlocked m, none, m.boot.txStopped, true⟩
    err := { m.err with frisket := .none }
    isl := { r.isl with clkFail := m.isl.clkFail }
    mir := { r.mir with
      serial := m.mir.serial, lastBeacon := m.mir.lastBeacon, beaconKnown := m.mir.beaconKnown, heard := m.mir.heard }
    jpc := { r.jpc with
      restarts := m.jpc.restarts, faultTicks := m.jpc.faultTicks, flash := m.jpc.flash, record := m.jpc.record
      recordCopy := m.jpc.recordCopy, versions := m.jpc.versions, clockHalt := m.jpc.clockHalt
      fw := if m.jpc.clockHalt then .halted else .rom }
    ink := { r.ink with
      epoch := m.ink.epoch, sampleTick := m.now, refillTick := m.now, thermTick := m.now, throttleTick := m.now
      policyTick := m.now }
    proof := { r.proof with
      retired := m.proof.retired, excl := m.proof.retired, sliceLost := m.proof.sliceLost
      aluNear := m.proof.aluNear.filter fun x => !(m.proof.runs.any fun q => q.state == 1 && q.item == 5 && q.verdict != 1 && q.unit == x)
      data := ⟨m.now, 0, 0, false⟩, tag := ⟨m.now, 0, 0, false⟩ } }
  let x := wr e (wr e x rScratch (rd e m rScratch)) (rScratch + 1) (rd e m (rScratch + 1))
  let x := [Lnk.hpa, .hpb, .mpa, .mpb, .ckl].foldl (fun x l => x.setLink l { LinkSt.reset with since := m.now }) x
  (List.range 8).foldl (fun x d =>
    if (m.dac d).st == .failed then x.setDac d { DacSt.reset with st := .failed, failCause := (m.dac d).failCause } else x) x
/-- The settings after a warm reset: XBR_RAT_WRITES is kept. -/
def warmCfg (e : Env) : Cfg := { Cfg.reset e.fuse.variant with ratWrites := e.cfg.ratWrites }

/-! ### Cold reset (R879, R880, R885 to R887) -/

/-- COLD_RESET: COLD_RST_N, or PWRGOOD, is low. -/
def execColdReset (s : State) : Host.Outcome State Fault Refusal :=
  runAlways s fun f _ m => (Cfg.reset f.variant, coldState f m)
/-- COLD_RST_N_RISE: the straps are sampled and phase 1 starts.  A device that a boundary-scan instruction holds stays held (R936). -/
def execColdRstNRise (pairSide : Bool) (smb : BitVec 3) (testEn : Bool) (s : State) : Host.Outcome State Fault Refusal :=
  runAlways s fun _ cfg m =>
    (cfg,
      if m.pins.coldRstN then m
      else if m.pins.jtagHold then m.setPins fun p => { p with coldRstN := true, testEn := testEn }
      else
        let m := m.setPins fun p => { p with
          coldRstN := true, pairSide := pairSide, smbStraps := smb, testEn := testEn, testSampled := testEn }
        m.setBoot fun b => { b with phase := 1, since := m.now })
/-- TEST_EN_CHANGE: after sampling, only GLB_STRAP.test_en follows the level (R919). -/
def execTestEnChange (level : Bool) (s : State) : Host.Outcome State Fault Refusal :=
  runAlways s fun _ cfg m => (cfg, m.setPins fun p => { p with testEn := level })
/-- VDD_AON_LOSS: the slip is lost (R887). -/
def execVddAonLoss (s : State) : Host.Outcome State Fault Refusal :=
  runAlways s fun _ cfg m => (cfg, m.setErr fun r => { r with slip := [], slip0 := none })

/-! ### The TAP (R932, R933, R936) -/

/-- The identification register: stepping, part, manufacturer and 1 (R934). -/
def idcode (f : Fuses) : Word :=
  BitVec.ofNat 32 (1 + 2 * 0x2B7 + 4096 * (if f.variant.dacs = 8 then 0x2932 else 0x2916) + 2 ^ 28 * (f.stepping.toNat % 16))
/-- What the instruction register captures (R932). -/
def irCapture : BitVec 8 := 1
/-- The number of the boundary cell of a ball: signal `b` of row `a` of a channel (Table 21.5), or entry `k` of the sideband block without
the balls that R935 leaves out (Table 21.6). -/
def ddrCell (d a b : Nat) : Nat := 72 * d + 12 * a + b
def sideCell (k : Nat) : Nat := 576 + k
/-- The level that the device gives one of its sideband outputs, READY, ALERT_N, HOT_N and THERMTRIP_N (cells 3 to 6), none where the ball
is left at high impedance (R925, Table 21.12): with EXTEST or CLAMP the boundary register drives it, and with HIGHZ nothing does
(Table 21.15). -/
def sideOut (e : Env) (m : M) (k : Nat) : Option Bool :=
  let own := if k = 3 then m.pins.ready else if k = 4 then alertN e m else if k = 5 then !m.ink.throttle else !m.pins.thermtrip
  let v := if m.acc.tapIr == 0 || m.acc.tapIr == 4 then m.acc.boundary.getLsbD (sideCell k) else own
  if m.acc.tapIr == 3 || (v && k != 3) then none else some v
/-- The balls as the boundary register captures them: the two levels that the model holds, and READY as the register drives it; every
other ball has a level that only the board gives (log entry 133). -/
def ballsSeen (m : M) : BitVec 604 :=
  let open_ : BitVec 604 := (List.range 19).foldl (fun x i => x ||| ((Config.freeWord (m.free + i)).setWidth 604 <<< (32 * i))) 0
  [(sideCell 0, m.pins.coldRstN), (sideCell 3, m.acc.boundary.getLsbD (sideCell 3)), (sideCell 13, m.pins.testEn)].foldl (fun x b =>
    if b.2 then x ||| ((1 : BitVec 604) <<< b.1) else x &&& ~~~((1 : BitVec 604) <<< b.1)) open_

/-- TAP_RESET: Test-Logic-Reset selects IDCODE, and JTAG loses its quoins (R846). -/
def execTapReset (s : State) : Host.Outcome State Fault Refusal :=
  run s fun e m => loseQuoins (m.setAcc fun a => { a with tapIr := 2, tapDr := (idcode e.fuse).setWidth 604 }) fun o => ownerPath o = 4
/-- An instruction that takes the balls: the device acts as at the fall of COLD_RST_N and stays held (R936).  EXTEST captures the balls in
the boundary register; HIGHZ and CLAMP select the bypass register, which captures 0. -/
def boundaryHold (s : State) (ir : BitVec 8) : Host.Outcome State Fault Refusal :=
  runCfg s fun f _ m =>
    let c := coldState f m
    let c := { c with
      free := c.free + 19
      acc := { c.acc with tapIr := ir }, pins := { c.pins with coldRstN := m.pins.coldRstN, jtagHold := true } }
    (Cfg.reset f.variant, c.setAcc fun a => { a with tapDr := if ir = 0 then ballsSeen { c with free := m.free } else 0 })
def execJtagExtest (s : State) : Host.Outcome State Fault Refusal := boundaryHold s 0
def execJtagHighz (s : State) : Host.Outcome State Fault Refusal := boundaryHold s 3
def execJtagClamp (s : State) : Host.Outcome State Fault Refusal := boundaryHold s 4

/-! ### Warm reset (R881, R882, R896 to R899) -/

/-- The Dirty lines whose writeback a memory port holds (Table 8.10). -/
def heldAtMem (m : M) (l : Line) : Bool := [MPort.mpa, .mpb].any fun p => (m.mem p).held.any fun r => r.write && r.line == l
/-- Step 4 of R896: the entries of Table 20.4. -/
def warmLog (e : Env) (m : M) (w : Warm) : M :=
  let lost := dirtyPrimary m
  let m := log e m 0x0005 31 (BitVec.ofNat 32 w.written) (BitVec.ofNat 32 (bit w.mirror)) 0
  if lost.isEmpty then m
  else log e m 0x0006 31 (BitVec.ofNat 32 lost.length) (if !w.mirror then 1 else if lost.all (heldAtMem m) then 3 else 2) 0
/-- Steps 4 to 6 of R896. -/
def finishWarm (e : Env) (m : M) (w : Warm) : Cfg × M := (warmCfg e, warmState e (warmLog e m w))

/-- WARM_RESET, as recognised under R881.  Before READY has first risen it restarts bring-up; until READY rises again it is ignored. -/
def execWarmReset (s : State) : Host.Outcome State Fault Refusal :=
  runCfg s fun f cfg m =>
    let e : Env := ⟨f, cfg⟩
    if !m.alive || m.boot.relock || m.boot.warm.isSome then (cfg, m)
    else if m.boot.phase ≠ 8 then finishWarm e m ⟨m.now, m.modeBit mMirror, false, 0⟩
    else
      let m := m.setPins fun p => { p with ready := false }
      let m := m.setBoot fun b => { b with warm := some ⟨m.now, m.modeBit mMirror, false, 0⟩ }
      (cfg, fin e (flushAllSticks e m 8))
/-- WARM_RESPONSE_WAIT: every request that passed the ports has its final response, or 10 ms have passed. -/
def execWarmResponseWait (s : State) : Host.Outcome State Fault Refusal :=
  runCfg s fun f cfg m =>
    let e : Env := ⟨f, cfg⟩
    match m.boot.warm with
    | none => (cfg, m)
    | some w =>
      if !m.alive || w.draining then (cfg, m)
      else
        let late := [HPort.hpa, .hpb].any fun p => passedBefore m p (m.mode.gen + 1)
        let m := if !late then m
          else [HPort.hpa, .hpb].foldl (fun m p =>
            (silencePort m p).setPort p { (silencePort m p).port p with outstanding := [] }) (elapseTo e m (w.start + 500000))
        if w.mirror then
          (cfg, fin e (m.setBoot fun b => { b with warm := some { w with draining := true } }))
        else finishWarm e m w
/-- WARM_DRAIN_END: no Dirty sector remains, or 4 s have passed since recognition. -/
def execWarmDrainEnd (s : State) : Host.Outcome State Fault Refusal :=
  runCfg s fun f cfg m =>
    let e : Env := ⟨f, cfg⟩
    match m.boot.warm with
    | none => (cfg, m)
    | some w =>
      if !m.alive || !w.draining then (cfg, m)
      else
        let m := if (dirtyPrimary m).isEmpty then m else elapseTo e m (w.start + 200000000)
        finishWarm e m w

/-! ### Bring-up (Table 20.2, R888 to R892) -/

def nextPhase (m : M) : M := m.setBoot fun b => { b with phase := b.phase + 1, since := m.now }
/-- Phase 4: every on-chip array is written with content 0 (R120, R170). -/
def initArrays (m : M) : M :=
  m.setCoh fun c => { c with tags := [], dir := [], lost := [], bad := [], spans := [], predictor := [], history := [] }
/-- Phase 5 releases the host and memory ports from the bring-up hold (R889). -/
def releasePorts (m : M) : M :=
  [Lnk.hpa, .hpb, .mpa, .mpb].foldl (fun m l => m.setLink l { m.link l with bringupHold := false }) m
/-- Phase 6 starts; without a Crekar link it takes no time (R890). -/
def enterPairing (e : Env) (m : M) : M :=
  if e.fuse.variant.ckl then startPairing e (nextPhase m) else nextPhase (nextPhase m)
/-- Phase 7 has ended: READY rises (R891). -/
def raiseReady (m : M) : M :=
  ((nextPhase m).setBoot fun b => { b with relock := false }).setPins fun p => { p with ready := true }
/-- BRINGUP_PHASE_END: the work of the phase in hand is done, and the next one starts. -/
def execBringupPhaseEnd (s : State) : Host.Outcome State Fault Refusal :=
  act s fun e m =>
    let runs := m.jpc.fw == .running
    if m.boot.stopped || m.boot.warm.isSome then m
    else
      match m.boot.phase with
      | 1 => nextPhase m
      | 2 => if runs then startTraining e (nextPhase m) else m
      | 3 =>
        let trained := (List.range 8).all fun d => !dacPresent e d || (m.dac d).st == .active || (m.dac d).st == .failed
        if runs && trained then nextPhase m else m
      | 4 => if runs then releasePorts (nextPhase (initArrays m)) else m
      | 5 => if runs && ([Lnk.hpa, .hpb, .mpa, .mpb].all fun l => (m.link l).st == .active) then enterPairing e m else m
      | 6 => if runs && m.twin.st != .hello && m.twin.st != .shed then nextPhase m else m
      | 7 => if runs then raiseReady m else m
      | _ => m
/-- LINK_PHASE_TIMEOUT: 200 ms after their release not every port is ACTIVE (R889). -/
def execLinkPhaseTimeout (s : State) : Host.Outcome State Fault Refusal :=
  act s fun e m =>
    if m.boot.stopped || m.boot.warm.isSome || m.boot.phase ≠ 5 || m.jpc.fw != .running then m
    else if [Lnk.hpa, .hpb, .mpa, .mpb].all fun l => (m.link l).st == .active then m
    else enterPairing e (elapseTo e m (m.boot.since + 10000000))

end Sys2Proof.Machine
end

