-- ==== Sys2Proof/Machine/Slices.lean ====
section
/-!
DEFINITION. The commands of the slices and of the host ports' timers: snoop and grant timeouts, back-invalidation, recovery, attribute
spans, the data array's answers, galley entries, reservations, composing sticks and end-point notices.
-/

namespace Sys2Proof.Machine

open Sys2Proof

/-! ### Snoops and grants (R185, R198, R209, R210) -/

/-- A snoop of the named kind that has had no answer, 20 µs after it left; the timer of one that waits for credits does not run. -/
def snoopTimer (s : State) (p : HPort) (tag : Tag) (f : Snp → Bool) : Host.Outcome State Fault Refusal :=
  act s fun e m =>
    match findSnp m p tag with
    | none => m
    | some (t, y) =>
      match y.sent with
      | none => m
      | some at_ =>
        if y.held || !f y || sliceDead m (sliceOf t.req.line) then m
        else snoopLost e (elapseTo e m (at_ + 1000)) t y
def execSnoopTimeout (p : HPort) (tag : Tag) (s : State) : Host.Outcome State Fault Refusal :=
  snoopTimer s p tag fun y => !y.bcast && y.evp.isNone
def execBcastSnoopTimeout (p : HPort) (tag : Tag) (s : State) : Host.Outcome State Fault Refusal :=
  snoopTimer s p tag fun y => y.bcast && y.evp.isNone
def execEvpWaitTimeout (p : HPort) (tag : Tag) (s : State) : Host.Outcome State Fault Refusal :=
  snoopTimer s p tag fun y => y.evp.isSome

/-- A grant that left at tick `left` has had no GRANT_ACK 4 µs later (R198). -/
def rollback (e : Env) (m : M) (t : Txn) (left : Nat) : M :=
  let p := t.req.port
  let l := t.req.line
  let a := t.req.agent
  let owned := t.grant != .s
  let m := elapseTo e m (left + 200)
  let q := m.port p
  let m := if q.outstanding.any fun x => x.1 == t.req.tag then m.setPort p { q with voided := t.req.tag :: q.voided } else m
  let m := log e m 0x0204 (sliceOf l) (a.setWidth 32) 0 (l.setWidth 64)
  let m := count e m (sliceOf l) 0xA 1 none
  if agentFenced e m a then
    endRollback e (if owned then poisonLine e m l else m) l
  else
    let (m, y) := sendSnoop e m l .inv p a false owned
    m.updTxn l fun t => { t with phase := .rollback, snoops := [y], sent := none }
def execGrantRollback (p : HPort) (tag : Tag) (s : State) : Host.Outcome State Fault Refusal :=
  act s fun e m =>
    match m.coh.txns.find? fun t => t.phase == .granted && t.req.port == p && t.req.tag == tag with
    | none => m
    | some t =>
      match t.sent with
      | none => m
      | some left => if sliceDead m (sliceOf t.req.line) then m else rollback e m t left

/-! ### Back-invalidation and recovery (R206, R215, R217) -/

/-- A tracker frees: the requests that wait for one go on, the oldest first, as far as trackers are free (R206); one that finds no way
eligible then waits under R208 and holds none back. -/
def execBackInvalFree (x : Fin 16) (s : State) : Host.Outcome State Fault Refusal :=
  act s fun e m =>
    if sliceDead m x.val then m
    else
      (m.coh.txns.filter fun t => t.phase == .tracker && sliceOf t.req.line == x.val).foldl (fun m t =>
        if 16 ≤ trackers m x.val || !m.coh.txns.contains t then m else dirRetry e m t) m
/-- 1 ms after a port event without a PORT_RECOVER (R215). -/
def execRecoveryWindowExpiry (p : HPort) (s : State) : Host.Outcome State Fault Refusal :=
  act s fun e m =>
    match (m.port p).window, (m.port p).interval with
    | some w, none =>
      let m := (poisonAll e (elapseTo e m (w + 50000)) p).1
      m.setPort p { m.port p with window := none, rolledBack := [] }
    | _, _ => m
/-- The recovery interval reaches its length (R217). -/
def execRecoveryIntervalEnd (p : HPort) (s : State) : Host.Outcome State Fault Refusal :=
  act s fun e m =>
    match (m.port p).interval with
    | some (start, len, _, _) => endInterval e (elapseTo e m (start + len)) p
    | none => m

/-! ### Attribute spans (R156 to R160) -/

/-- The master table's answer to a miss: the span is recorded, and the requests in it that waited for their attributes go on. -/
def execAttrSpanFill (x : Fin 16) (folio : Folio) (s : State) : Host.Outcome State Fault Refusal :=
  act s fun e m =>
    let waits (t : Txn) : Bool := t.phase == .attr && sliceOf t.req.line == x.val
    if !(m.coh.txns.any fun t => waits t && folioOf t.req.line == folio) || sliceDead m x.val then m
    else
      let f := folio.toNat
      let m := fillSpan e m x.val f
      let (lo, hi) := ratSpan e.cfg.rat f
      let ts := m.coh.txns.filter fun t =>
        waits t && decide (lo ≤ (folioOf t.req.line).toNat) && decide ((folioOf t.req.line).toNat ≤ hi)
      ts.foldl (fun m t =>
        let m := m.setCoh fun c => { c with txns := c.txns.erase t }
        withAttrs e (noteLooked m t.req) t.req (ratAttrs e.cfg.rat f) t.cndOk) m
/-- 65,536 cycles of the slice after a span was filled, those before a change of its divider counted at the rate of that time: 29.79 µs at
full speed, 59.58 µs at half speed (R160). -/
def execAttrSpanExpiry (x : Fin 16) (folio : Folio) (s : State) : Host.Outcome State Fault Refusal :=
  act s fun e m =>
    match (m.spans x.val).find? fun y => decide (y.lo ≤ folio.toNat) && decide (folio.toNat ≤ y.hi) with
    | none => m
    | some y =>
      let rate := sliceRate m x.val
      let m := elapseTo e m (y.filled + (65536 - y.cycles + rate - 1) / rate)
      m.setSpans x.val ((m.spans x.val).erase y)

/-! ### The data array, the galleys and fill staging (R49, R54, R288, R465) -/

def execDaReadDone (line : Line) (err0 err1 : BitVec 40) (s : State) : Host.Outcome State Fault Refusal :=
  act s fun e m => if sliceDead m (sliceOf line) then m else daReadDone e m line err0 err1
def execDaWriteDone (line : Line) (s : State) : Host.Outcome State Fault Refusal :=
  act s fun e m => if sliceDead m (sliceOf line) then m else daWriteDone e m line
/-- An entry of the line's slice is free: the requests that wait for one take it (R288). -/
def execGalleyEntryFree (line : Line) (s : State) : Host.Outcome State Fault Refusal :=
  act s fun e m => galleyFree e m (sliceOf line)
def execFillStagingRelease (x : Fin 16) (s : State) : Host.Outcome State Fault Refusal :=
  act s fun e m => stagingFree e m x.val

/-! ### Reservations (R253, R259, R260) -/

/-- A slot has been armed for 16 µs. -/
def execRsvSlotExpiry (x : Fin 16) (slot : Fin 8) (s : State) : Host.Outcome State Fault Refusal :=
  act s fun e m =>
    let y := m.slot x.val slot.val
    if !y.armed then m else clearSlot (elapseTo e m (y.tick + 800)) x.val slot.val
/-- The head of the queue has sent no RSV_LD for its line in 4 µs; one that its port holds has been sent (R259). -/
def execStarveHeadTimeout (x : Fin 16) (s : State) : Host.Outcome State Fault Refusal :=
  act s fun e m =>
    match m.starve x.val with
    | [] => m
    | (a, l, t) :: _ =>
      let q := m.port (agentPort a)
      let mine (r : Req) : Bool := r.op == .rsvLd && r.agent == a && r.line == l
      let sent := (guardOn m l == some a) || m.coh.waiting.any mine || (m.coh.txns.any fun y => mine y.req)
        || q.hold.any mine || (q.epochsOf a).hold.any mine
      if sent then m else leaveStarve (elapseTo e m (t + 200)) x.val a
/-- 2 µs after the grant of a guarded slot left its guard ends; the slot stays armed (R260). -/
def execRsvGuardExpiry (x : Fin 16) (s : State) : Host.Outcome State Fault Refusal :=
  act s fun e m =>
    match (List.range 8).find? fun k => (m.slot x.val k).armed && (m.slot x.val k).guarded with
    | none => m
    | some k =>
      let y := m.slot x.val k
      match y.sent with
      | none => m
      | some left => leaveStarve ((elapseTo e m (left + 100)).setSlot x.val k { y with guarded := false }) x.val y.agent

/-! ### Composing sticks and barriers (R273, R295 to R299) -/

/-- The slice answers a stick-open notice. -/
def execStickOpenReply (p : HPort) (line : Line) (s : State) : Host.Outcome State Fault Refusal :=
  act s fun e m => if sliceReady m (sliceOf line) then stickReply e m p line else m
/-- Whether a line lies in a folio that is being evacuated (R742). -/
def evacLine (e : Env) (m : M) (l : Line) : Bool :=
  (List.range 16).any fun w =>
    let t := m.tagAt (tagKey e.fuse.variant l w)
    t.evac && t.tag == tagOf l && t.pa12 == pa12 l
/-- Whether the slice has a reason to demand the flush of a stick, and whether it is a range, a drain or an evacuation (Table 6.6). -/
def demandsFlush (e : Env) (m : M) (p : HPort) (l : Line) : Bool × Bool :=
  let range := (m.coh.waiting.any fun r => (r.op == .recallFlush || r.op == .recallInval) && r.line == l)
    || m.modeBit mDrain || evacLine e m l
  let other := (m.coh.sliceSticks.any fun y => y.port == p && y.line == l && y.demanded) || (m.stickAt p.other l).isSome
  (other || range, range && !other)
def execStickFlushDemand (p : HPort) (line : Line) (s : State) : Host.Outcome State Fault Refusal :=
  act s fun e m =>
    let (due, range) := demandsFlush e m p line
    if due then flushStick e m p line (if range then 5 else 4) false else m
/-- A stick has been open for 1 µs. -/
def execStickTimeout (p : HPort) (line : Line) (s : State) : Host.Outcome State Fault Refusal :=
  act s fun e m =>
    match m.stickAt p line with
    | none => m
    | some y => flushStick e (elapseTo e m (y.tick + 50)) p line 1 false
/-- The end-point notice of a write that was answered early reaches its port (R273): the oldest of its slice's channel to the port, since a
channel keeps its order (R70). -/
def execEndPointNotice (p : HPort) (agent : Agent) (epoch : Nat) (s : State) : Host.Outcome State Fault Refusal :=
  act s fun e m =>
    let due (n : Nat × HPort × Agent × Nat) : Bool :=
      n.2 == (p, agent, epoch) && (m.coh.notices.find? fun y => y.1 == n.1 && y.2.1 == p) == some n
    match m.coh.notices.find? due with
    | none => m
    | some n => decEpoch e (m.setCoh fun c => { c with notices := c.notices.erase n }) p agent epoch

end Sys2Proof.Machine
end

