-- ==== Sys2Proof/Machine/Dispatch.lean ====
section
/-!
DEFINITION. The dispatch: one arm for each command, each a direct call of its meaning.
-/

namespace Sys2Proof.Machine

open Sys2Proof

/-- The effect of a command on everything but the queue. -/
def exec (i : Instr) (s : State) : Host.Outcome State Fault Refusal :=
  match i with
  | .rdShared h => Sys2Proof.Machine.execRdShared h s
  | .rdOwn h => Sys2Proof.Machine.execRdOwn h s
  | .rdOnce h => Sys2Proof.Machine.execRdOnce h s
  | .rdNt h => Sys2Proof.Machine.execRdNt h s
  | .rsvLd h => Sys2Proof.Machine.execRsvLd h s
  | .wrLine h data => Sys2Proof.Machine.execWrLine h data s
  | .wrPart h mask data => Sys2Proof.Machine.execWrPart h mask data s
  | .wrNt h mask data => Sys2Proof.Machine.execWrNt h mask data s
  | .cndSt h mask data => Sys2Proof.Machine.execCndSt h mask data s
  | .evictClean h => Sys2Proof.Machine.execEvictClean h s
  | .evictDirty h data => Sys2Proof.Machine.execEvictDirty h data s
  | .atom h slot0 slot1 => Sys2Proof.Machine.execAtom h slot0 slot1 s
  | .flushLine h => Sys2Proof.Machine.execFlushLine h s
  | .invalLine h => Sys2Proof.Machine.execInvalLine h s
  | .barrierC h => Sys2Proof.Machine.execBarrierC h s
  | .cfgRd h => Sys2Proof.Machine.execCfgRd h s
  | .cfgWr h => Sys2Proof.Machine.execCfgWr h s
  | .snpRspI r => Sys2Proof.Machine.execSnpRspI r s
  | .snpRspS r => Sys2Proof.Machine.execSnpRspS r s
  | .snpRspID r data => Sys2Proof.Machine.execSnpRspID r data s
  | .snpRspSD r data => Sys2Proof.Machine.execSnpRspSD r data s
  | .snpRspEvp r => Sys2Proof.Machine.execSnpRspEvp r s
  | .grantAck p tag => Sys2Proof.Machine.execGrantAck p tag s
  | .peerBeaconRx p b => Sys2Proof.Machine.execPeerBeaconRx p b s
  | .memDataRx m tag dcount poison data => Sys2Proof.Machine.execMemDataRx m tag dcount poison data s
  | .memCmpRx m tag => Sys2Proof.Machine.execMemCmpRx m tag s
  | .memErrRx m tag code => Sys2Proof.Machine.execMemErrRx m tag code s
  | .payloadFlitRx l flit unc => Sys2Proof.Machine.execPayloadFlitRx l flit unc s
  | .idleFlitRx l flit unc => Sys2Proof.Machine.execIdleFlitRx l flit unc s
  | .nakRx l flit unc => Sys2Proof.Machine.execNakRx l flit unc s
  | .retrainReqRx l flit unc => Sys2Proof.Machine.execRetrainReqRx l flit unc s
  | .initFlitRx l flit unc => Sys2Proof.Machine.execInitFlitRx l flit unc s
  | .nakResendTimer l => Sys2Proof.Machine.execNakResendTimer l s
  | .ackTimerExpiry l => Sys2Proof.Machine.execAckTimerExpiry l s
  | .replayNoProgress l => Sys2Proof.Machine.execReplayNoProgress l s
  | .noFlitTimeout l => Sys2Proof.Machine.execNoFlitTimeout l s
  | .crcWindow l => Sys2Proof.Machine.execCrcWindow l s
  | .lossOfSignal l lane => Sys2Proof.Machine.execLossOfSignal l lane s
  | .laneLockTimeout l lane => Sys2Proof.Machine.execLaneLockTimeout l lane s
  | .retrainAttemptTimeout l => Sys2Proof.Machine.execRetrainAttemptTimeout l s
  | .retrainResync l flit unc => Sys2Proof.Machine.execRetrainResync l flit unc s
  | .retrainCountReset l => Sys2Proof.Machine.execRetrainCountReset l s
  | .downToDetect l => Sys2Proof.Machine.execDownToDetect l s
  | .partnerDetected l groups => Sys2Proof.Machine.execPartnerDetected l groups s
  | .trainEqDone l failedRx partner => Sys2Proof.Machine.execTrainEqDone l failedRx partner s
  | .trainEqTimeout l => Sys2Proof.Machine.execTrainEqTimeout l s
  | .alignDone l partner => Sys2Proof.Machine.execAlignDone l partner s
  | .alignTimeout l => Sys2Proof.Machine.execAlignTimeout l s
  | .initTimeout l => Sys2Proof.Machine.execInitTimeout l s
  | .portEvent p => Sys2Proof.Machine.execPortEvent p s
  | .portReset l => Sys2Proof.Machine.execPortReset l s
  | .snoopTimeout p tag => Sys2Proof.Machine.execSnoopTimeout p tag s
  | .bcastSnoopTimeout p tag => Sys2Proof.Machine.execBcastSnoopTimeout p tag s
  | .evpWaitTimeout p tag => Sys2Proof.Machine.execEvpWaitTimeout p tag s
  | .grantRollback p tag => Sys2Proof.Machine.execGrantRollback p tag s
  | .backInvalFree x => Sys2Proof.Machine.execBackInvalFree x s
  | .recoveryWindowExpiry p => Sys2Proof.Machine.execRecoveryWindowExpiry p s
  | .recoveryIntervalEnd p => Sys2Proof.Machine.execRecoveryIntervalEnd p s
  | .attrSpanFill x folio => Sys2Proof.Machine.execAttrSpanFill x folio s
  | .attrSpanExpiry x folio => Sys2Proof.Machine.execAttrSpanExpiry x folio s
  | .daReadDone line err0 err1 => Sys2Proof.Machine.execDaReadDone line err0 err1 s
  | .daWriteDone line => Sys2Proof.Machine.execDaWriteDone line s
  | .galleyEntryFree line => Sys2Proof.Machine.execGalleyEntryFree line s
  | .fillStagingRelease x => Sys2Proof.Machine.execFillStagingRelease x s
  | .rsvSlotExpiry x slot => Sys2Proof.Machine.execRsvSlotExpiry x slot s
  | .starveHeadTimeout x => Sys2Proof.Machine.execStarveHeadTimeout x s
  | .rsvGuardExpiry x => Sys2Proof.Machine.execRsvGuardExpiry x s
  | .stickOpenReply p line => Sys2Proof.Machine.execStickOpenReply p line s
  | .stickFlushDemand p line => Sys2Proof.Machine.execStickFlushDemand p line s
  | .stickTimeout p line => Sys2Proof.Machine.execStickTimeout p line s
  | .endPointNotice p agent epoch => Sys2Proof.Machine.execEndPointNotice p agent epoch s
  | .memTimeout m tag => Sys2Proof.Machine.execMemTimeout m tag s
  | .memportDown m => Sys2Proof.Machine.execMemportDown m s
  | .islandStop n => Sys2Proof.Machine.execIslandStop n s
  | .islandWake n cause => Sys2Proof.Machine.execIslandWake n cause s
  | .wakeReadyTimeout n => Sys2Proof.Machine.execWakeReadyTimeout n s
  | .clockCheckWindow found => Sys2Proof.Machine.execClockCheckWindow found s
  | .pllLockTimeout unlocked => Sys2Proof.Machine.execPllLockTimeout unlocked s
  | .xtalLost => Sys2Proof.Machine.execXtalLost s
  | .mirrorCapture => Sys2Proof.Machine.execMirrorCapture s
  | .accessAbandon path island addr write => Sys2Proof.Machine.execAccessAbandon path island addr write s
  | .refreshDue d => Sys2Proof.Machine.execRefreshDue d s
  | .mr4Poll d doubled => Sys2Proof.Machine.execMr4Poll d doubled s
  | .dqsTracking d => Sys2Proof.Machine.execDqsTracking d s
  | .daTraining d r => Sys2Proof.Machine.execDaTraining d r s
  | .pinDiagnosis d mismatch => Sys2Proof.Machine.execPinDiagnosis d mismatch s
  | .pairHelloRx h => Sys2Proof.Machine.execPairHelloRx h s
  | .pairRefuseRx reason => Sys2Proof.Machine.execPairRefuseRx reason s
  | .shedPhase2 => Sys2Proof.Machine.execShedPhase2 s
  | .shedDoneRx ctlSeq => Sys2Proof.Machine.execShedDoneRx ctlSeq s
  | .pairCommitRx ctlSeq => Sys2Proof.Machine.execPairCommitRx ctlSeq s
  | .pairAttemptLimit => Sys2Proof.Machine.execPairAttemptLimit s
  | .releaseHalfRx ctlSeq => Sys2Proof.Machine.execReleaseHalfRx ctlSeq s
  | .releaseAckRx ctlSeq => Sys2Proof.Machine.execReleaseAckRx ctlSeq s
  | .mirWriteRx mtag poison mem full line mask data => Sys2Proof.Machine.execMirWriteRx mtag poison mem full line mask data s
  | .mirReleaseRx line => Sys2Proof.Machine.execMirReleaseRx line s
  | .mirFetchRx mtag line => Sys2Proof.Machine.execMirFetchRx mtag line s
  | .mirAckRx mtag => Sys2Proof.Machine.execMirAckRx mtag s
  | .mirNakRx mtag reason => Sys2Proof.Machine.execMirNakRx mtag reason s
  | .mirNakBusyRetry line => Sys2Proof.Machine.execMirNakBusyRetry line s
  | .mirDataRx mtag poison data => Sys2Proof.Machine.execMirDataRx mtag poison data s
  | .mirLostRx mtag line => Sys2Proof.Machine.execMirLostRx mtag line s
  | .beaconSend => Sys2Proof.Machine.execBeaconSend s
  | .cklLost => Sys2Proof.Machine.execCklLost s
  | .beaconLost => Sys2Proof.Machine.execBeaconLost s
  | .suspectEval => Sys2Proof.Machine.execSuspectEval s
  | .isolatedPortActive p => Sys2Proof.Machine.execIsolatedPortActive p s
  | .drainDoneOwn => Sys2Proof.Machine.execDrainDoneOwn s
  | .infoGet d => Sys2Proof.Machine.execInfoGet d s
  | .colophonGet d => Sys2Proof.Machine.execColophonGet d s
  | .fwVersion d => Sys2Proof.Machine.execFwVersion d s
  | .modeSet d => Sys2Proof.Machine.execModeSet d s
  | .modeClear d => Sys2Proof.Machine.execModeClear d s
  | .modeQuery d => Sys2Proof.Machine.execModeQuery d s
  | .modeSettled n => Sys2Proof.Machine.execModeSettled n s
  | .ratWrite d => Sys2Proof.Machine.execRatWrite d s
  | .ratRead d => Sys2Proof.Machine.execRatRead d s
  | .ratSync d => Sys2Proof.Machine.execRatSync d s
  | .ratSyncTimeout id => Sys2Proof.Machine.execRatSyncTimeout id s
  | .flushRange d => Sys2Proof.Machine.execFlushRange d s
  | .invalRange d => Sys2Proof.Machine.execInvalRange d s
  | .drainStart d => Sys2Proof.Machine.execDrainStart d s
  | .drainStatus d => Sys2Proof.Machine.execDrainStatus d s
  | .rangeCmdComplete id => Sys2Proof.Machine.execRangeCmdComplete id s
  | .rangeCmdLimit id => Sys2Proof.Machine.execRangeCmdLimit id s
  | .linkStatus d => Sys2Proof.Machine.execLinkStatus d s
  | .linkRetrain d => Sys2Proof.Machine.execLinkRetrain d s
  | .linkRetrainFull d => Sys2Proof.Machine.execLinkRetrainFull d s
  | .fullRetrainHoldEnd l => Sys2Proof.Machine.execFullRetrainHoldEnd l s
  | .linkCmdTimeout l => Sys2Proof.Machine.execLinkCmdTimeout l s
  | .linkWidth d => Sys2Proof.Machine.execLinkWidth d s
  | .linkErrPolicy d => Sys2Proof.Machine.execLinkErrPolicy d s
  | .pairStart d => Sys2Proof.Machine.execPairStart d s
  | .pairStatus d => Sys2Proof.Machine.execPairStatus d s
  | .pairRelease d => Sys2Proof.Machine.execPairRelease d s
  | .adoptRebuilt d => Sys2Proof.Machine.execAdoptRebuilt d s
  | .adoptForce d => Sys2Proof.Machine.execAdoptForce d s
  | .mirrorPolicy d => Sys2Proof.Machine.execMirrorPolicy d s
  | .inkGrant d => Sys2Proof.Machine.execInkGrant d s
  | .inkFloor d => Sys2Proof.Machine.execInkFloor d s
  | .inkReport d => Sys2Proof.Machine.execInkReport d s
  | .inkPlanQuery d => Sys2Proof.Machine.execInkPlanQuery d s
  | .patrolCfg d => Sys2Proof.Machine.execPatrolCfg d s
  | .proofRun d => Sys2Proof.Machine.execProofRun d s
  | .proofStatus d => Sys2Proof.Machine.execProofStatus d s
  | .proofAbort d => Sys2Proof.Machine.execProofAbort d s
  | .proofRunEnd runId => Sys2Proof.Machine.execProofRunEnd runId s
  | .proofRunLimit runId => Sys2Proof.Machine.execProofRunLimit runId s
  | .perfCfg d => Sys2Proof.Machine.execPerfCfg d s
  | .perfSnap d => Sys2Proof.Machine.execPerfSnap d s
  | .sampleCfg d => Sys2Proof.Machine.execSampleCfg d s
  | .perfUserGrant d => Sys2Proof.Machine.execPerfUserGrant d s
  | .logRead d => Sys2Proof.Machine.execLogRead d s
  | .logClear d => Sys2Proof.Machine.execLogClear d s
  | .logPolicy d => Sys2Proof.Machine.execLogPolicy d s
  | .fwStage d => Sys2Proof.Machine.execFwStage d s
  | .fwCommitTrial d => Sys2Proof.Machine.execFwCommitTrial d s
  | .fwVerifyDone cause => Sys2Proof.Machine.execFwVerifyDone cause s
  | .fwCommitFinal d => Sys2Proof.Machine.execFwCommitFinal d s
  | .fwRestart d => Sys2Proof.Machine.execFwRestart d s
  | .fwRollback d => Sys2Proof.Machine.execFwRollback d s
  | .appCfg d => Sys2Proof.Machine.execAppCfg d s
  | .appReset d => Sys2Proof.Machine.execAppReset d s
  | .portRecover d => Sys2Proof.Machine.execPortRecover d s
  | .portFenceLink d => Sys2Proof.Machine.execPortFenceLink d s
  | .portFenceAgent d => Sys2Proof.Machine.execPortFenceAgent d s
  | .portUnfenceLink d => Sys2Proof.Machine.execPortUnfenceLink d s
  | .portUnfenceAgent d => Sys2Proof.Machine.execPortUnfenceAgent d s
  | .agentMap d => Sys2Proof.Machine.execAgentMap d s
  | .frisketArm d => Sys2Proof.Machine.execFrisketArm d s
  | .pinmarkSet d => Sys2Proof.Machine.execPinmarkSet d s
  | .pinmarkClear d => Sys2Proof.Machine.execPinmarkClear d s
  | .watchdogExpiry => Sys2Proof.Machine.execWatchdogExpiry s
  | .firmwareFault => Sys2Proof.Machine.execFirmwareFault s
  | .jpcRestart cause => Sys2Proof.Machine.execJpcRestart cause s
  | .bootRom b => Sys2Proof.Machine.execBootRom b s
  | .quoinHoldLimit q => Sys2Proof.Machine.execQuoinHoldLimit q s
  | .epochBoundary e => Sys2Proof.Machine.execEpochBoundary e s
  | .planEpoch d => Sys2Proof.Machine.execPlanEpoch d s
  | .planMissing => Sys2Proof.Machine.execPlanMissing s
  | .inkSample rails est estTask => Sys2Proof.Machine.execInkSample rails est estTask s
  | .inkSensorFault rail => Sys2Proof.Machine.execInkSensorFault rail s
  | .ceilBucketRefill staticEnergy => Sys2Proof.Machine.execCeilBucketRefill staticEnergy s
  | .ceilUnmet powerQw => Sys2Proof.Machine.execCeilUnmet powerQw s
  | .islandPolicyCheck f => Sys2Proof.Machine.execIslandPolicyCheck f s
  | .thermalSample temp => Sys2Proof.Machine.execThermalSample temp s
  | .throttleStep => Sys2Proof.Machine.execThrottleStep s
  | .thermalTrip temp => Sys2Proof.Machine.execThermalTrip temp s
  | .proofStep runId r => Sys2Proof.Machine.execProofStep runId r s
  | .evacComplete x block => Sys2Proof.Machine.execEvacComplete x block s
  | .patrolChunk target reads => Sys2Proof.Machine.execPatrolChunk target reads s
  | .patrolLate target => Sys2Proof.Machine.execPatrolLate target s
  | .coldReset => Sys2Proof.Machine.execColdReset s
  | .warmReset => Sys2Proof.Machine.execWarmReset s
  | .warmResponseWait => Sys2Proof.Machine.execWarmResponseWait s
  | .warmDrainEnd => Sys2Proof.Machine.execWarmDrainEnd s
  | .bringupPhaseEnd => Sys2Proof.Machine.execBringupPhaseEnd s
  | .linkPhaseTimeout => Sys2Proof.Machine.execLinkPhaseTimeout s
  | .smbusRegRead addr count => Sys2Proof.Machine.execSmbusRegRead addr count s
  | .smbusRegWrite addr data count pecOk => Sys2Proof.Machine.execSmbusRegWrite addr data count pecOk s
  | .smbusLastStatus => Sys2Proof.Machine.execSmbusLastStatus s
  | .smbusTimeout => Sys2Proof.Machine.execSmbusTimeout s
  | .jtagRegAccess dr => Sys2Proof.Machine.execJtagRegAccess dr s
  | .tapReset => Sys2Proof.Machine.execTapReset s
  | .jtagExtest => Sys2Proof.Machine.execJtagExtest s
  | .jtagHighz => Sys2Proof.Machine.execJtagHighz s
  | .jtagClamp => Sys2Proof.Machine.execJtagClamp s
  | .quoRead a q => Sys2Proof.Machine.execQuoRead a q s
  | .quoWrite a q value => Sys2Proof.Machine.execQuoWrite a q value s
  | .quoBreak a value => Sys2Proof.Machine.execQuoBreak a value s
  | .mbxDoorbell a ring value => Sys2Proof.Machine.execMbxDoorbell a ring value s
  | .jpcWdogWrite value => Sys2Proof.Machine.execJpcWdogWrite value s
  | .jpcCtlRestart a => Sys2Proof.Machine.execJpcCtlRestart a s
  | .jpcCtlHalt a => Sys2Proof.Machine.execJpcCtlHalt a s
  | .prfSnapStart a => Sys2Proof.Machine.execPrfSnapStart a s
  | .prfWalkDone ticks => Sys2Proof.Machine.execPrfWalkDone ticks s
  | .pmcLoRead a c => Sys2Proof.Machine.execPmcLoRead a c s
  | .pmcHiRead a c => Sys2Proof.Machine.execPmcHiRead a c s
  | .pmcLoWrite a c value => Sys2Proof.Machine.execPmcLoWrite a c value s
  | .rcRegisterRead a addr => Sys2Proof.Machine.execRcRegisterRead a addr s
  | .errAlertRead a => Sys2Proof.Machine.execErrAlertRead a s
  | .selectorData0Read a sel => Sys2Proof.Machine.execSelectorData0Read a sel s
  | .selectorWrite a sel value => Sys2Proof.Machine.execSelectorWrite a sel value s
  | .imposeResultRead a aux => Sys2Proof.Machine.execImposeResultRead a aux s
  | .histShiftWrite a value => Sys2Proof.Machine.execHistShiftWrite a value s
  | .linkCfgThresholdWrite a l value => Sys2Proof.Machine.execLinkCfgThresholdWrite a l value s
  | .linkCfgHoldDownWrite a l value => Sys2Proof.Machine.execLinkCfgHoldDownWrite a l value s
  | .dacTimingWrite a d k value => Sys2Proof.Machine.execDacTimingWrite a d k value s
  | .appPolicyWrite a value => Sys2Proof.Machine.execAppPolicyWrite a value s
  | .memportEquivWrite a value => Sys2Proof.Machine.execMemportEquivWrite a value s
  | .bitAliasWrite a addr value => Sys2Proof.Machine.execBitAliasWrite a addr value s
  | .mirrorWindowRead a addr => Sys2Proof.Machine.execMirrorWindowRead a addr s
  | .ringWindowAccess a addr write value => Sys2Proof.Machine.execRingWindowAccess a addr write value s
  | .regWrite a addr value => Sys2Proof.Machine.execRegWrite a addr value s
  | .groupAlignmentLost l g => Sys2Proof.Machine.execGroupAlignmentLost l g s
  | .coldRstNRise pairSide smb testEn => Sys2Proof.Machine.execColdRstNRise pairSide smb testEn s
  | .testEnChange level => Sys2Proof.Machine.execTestEnChange level s
  | .vddAonLoss => Sys2Proof.Machine.execVddAonLoss s
  | .isolatedNoBeacon => Sys2Proof.Machine.execIsolatedNoBeacon s
  | .drainTaskChunk lines => Sys2Proof.Machine.execDrainTaskChunk lines s
  | .mirrorCatchupChunk x lines => Sys2Proof.Machine.execMirrorCatchupChunk x lines s
  | .writebackSmoothingChunk x lines => Sys2Proof.Machine.execWritebackSmoothingChunk x lines s
  | .sweepProgress x kind => Sys2Proof.Machine.execSweepProgress x kind s

end Sys2Proof.Machine
end

