-- ==== Sys2Proof/WellFormed.lean ====
section
/-!
DEFINITION. Well-formed commands: the operand values that the device can meet.  An operand outside these names a lane,
a lane group or a list that does not exist.
-/

namespace Sys2Proof

/-- The checks on a command's operands: lanes and groups that the link has (Table 7.1), training steps (Table 10.6), and lists
with one element for each rail (R705), task (Table 15.2) or counter group (R859). -/
def Instr.wf : Instr → Bool
  | .lossOfSignal l lane => decide (lane.val < l.lanes)
  | .laneLockTimeout l lane => decide (lane.val < l.lanes)
  | .groupAlignmentLost l g => l.allGroups.getLsbD g.val
  | .partnerDetected l g => g &&& ~~~l.allGroups == 0
  | .alignDone l p => p.groups &&& ~~~l.allGroups == 0 && p.lanes.all (fun x => decide (x.lane.val < l.lanes))
  | .trainEqDone l rx p =>
    rx.toNat < 2 ^ l.lanes && p.failedTx.toNat < 2 ^ l.lanes && p.taps.all (fun x => decide (x.lane.val < l.lanes))
  | .daTraining _ r => decide (r.pins.map (·.1)).Nodup && r.pins.all (fun x => decide (4 ≤ x.2.val))
      && (match r.strobe with | some k => decide (4 ≤ k.val) | none => true)
  | .clockCheckWindow f => decide (f.counts.map (·.1)).Nodup
  | .epochBoundary f => f.estTask.length = 6 && f.rails.length = 7 && decide (f.estTask.sum ≤ f.est)
  | .inkSample rails est estTask => rails.length = 7 && estTask.length = 6 && decide (estTask.sum ≤ est)
  | .bootRom b => decide (b.cause0.toNat ≤ 5) && decide (b.cause1.toNat ≤ 5)
  | .adoptRebuilt d => Machine.descArg d 8 1 != 2
  | .adoptForce d => Machine.descArg d 8 1 != 1
  | .linkRetrain d => Machine.descArg d 9 1 != 1
  | .linkRetrainFull d => Machine.descArg d 9 1 != 0
  | .fwCommitTrial d => Machine.descArg d 8 1 != 2
  | .fwCommitFinal d => Machine.descArg d 8 1 != 1
  | .portFenceLink d | .portUnfenceLink d => Machine.descArg d 8 1 != 1
  | .portFenceAgent d | .portUnfenceAgent d => Machine.descArg d 8 1 != 0
  | .fwVerifyDone c => decide (c.toNat ≤ 5)
  | .prfWalkDone ticks => decide (ticks.length ≤ 31)
  | _ => true

end Sys2Proof
end

