-- ==== Sys2Proof/Safety.lean ====
section
/-!
DEFINITION. The terms claims are stated in: a running device, a command that is taken, the state after a command, and the invariants.
-/

namespace Sys2Proof.Machine

open Sys2Proof

/-! ### States -/

/-- What commands read and may not change. -/
def State.env (s : State) : Env := ⟨s.fuse, s.cfg⟩
/-- The device is out of reset and is not in manufacturing test (R879, R919). -/
def Live (s : State) : Prop := s.m.alive = true ∧ s.m.pins.testSampled = false
/-- `s` with everything but its fuses, its settings and its queue given by `m`. -/
def State.withM (s : State) (m : M) : State := { s with m := m }
/-- `s` with `m`, and then what goes on by itself, with no further event, until nothing more does: requests that can start do, queued
messages leave as far as credits go, freed buffers are returned. -/
def State.after (s : State) (m : M) : State := s.withM (fin s.env m)

/-! ### Mailbox commands (R573 to R582, R614 to R620) -/

/-- The firmware takes descriptor `d` and serves it: it runs, READY has been reached (or the command is served `early`), or it is in
RECOVERY and serves the command there; the RSP ring has room; the ring has its turn (R578); and nothing of what every command is checked for is against it: the
class, the reserved fields, the order that `flags` asks for. -/
def Taken (s : State) (d : Desc) (any early recovery : Bool) : Prop :=
  Live s
    ∧ (s.m.jpc.fw = .running ∧ (early = true ∨ (s.m.boot.phase = 8 ∧ s.m.boot.warm = none))
      ∨ (s.m.jpc.fw = .recovery ∧ recovery = true ∧ (d.ring.val = 10 ∨ d.ring.val = 38)))
    ∧ (any = true ∨ privileged s.m d = true)
    ∧ (rspRing d.ring).isSome = true ∧ (∀ r, rspRing d.ring = some r → s.m.ringFree r ≠ 0 ∧ (r = 39 → s.m.jpc.dbgWait = []))
    ∧ s.m.prf.snapCmd = none ∧ inTurn s.m d.ring = true
    ∧ (d.flags.getLsbD 0 = true → s.m.jpc.accepted.any (fun a => a.ring == d.ring) = false)
    ∧ d.flags.extractLsb' 2 6 = 0 ∧ d.resv = 0

/-- `m` with the response OK of descriptor `d` posted: `opcode`, the privilege it was judged with, and the results `res`. -/
def State.ok (s : State) (d : Desc) (opcode : Nat) (m : M) (res : BitVec 448) : M :=
  postRsp s.env m d opcode 0 (privileged s.m d) res
/-- `s` once the firmware has taken the descriptor. -/
def State.took (s : State) (d : Desc) : M := takeDesc s.m d

/-- The number that the next command that ends later gets. -/
def State.jobId (s : State) : Nat := s.m.jpc.nextId
/-- The record of a command that ends later. -/
def State.job (s : State) (d : Desc) (opcode limit base top : Nat) : Accepted :=
  ⟨s.jobId, d.ring, d.tag, BitVec.ofNat 16 opcode, s.m.now, if limit = 0 then none else some (s.m.now + limit * 50000), base, top,
    [0, 0, 0, 0], [], privileged s.m d⟩
/-- `s` with a command that ends later on record: `limit` is its limit in ms, 0 for none. -/
def State.booked (s : State) (d : Desc) (opcode limit base top : Nat) : M :=
  (s.took d).setJpc fun j => { j with
    accepted := s.m.jpc.accepted ++ [s.job d opcode limit base top], nextId := s.jobId + 1 }
/-- `s` once such a command is accepted: the response ACCEPTED with the results `res` is posted (R581). -/
def State.accepted (s : State) (d : Desc) (opcode limit base top : Nat) (res : BitVec 448) : M :=
  postRsp s.env (s.booked d opcode limit base top) { d with flags := 0 } opcode 1 (privileged s.m d) res

/-! ### Requests of agents (chapters 8 and 9) -/

/-- The receive buffers of a message with `slots` data slots are at hand on an ACTIVE link: its flit has taken them, or they are free
(R344, R347). -/
def Buffered (s : State) (l : Lnk) (cls slots : Nat) : Prop :=
  (s.m.link l).st = .active
    ∧ (listLe (buffersOf (cls, slots)) (s.m.link l).rxPend = true ∨ listLe (buffersOf (cls, slots)) (s.m.link l).rxFree = true)
/-- `s` with those buffers taken. -/
def State.received (s : State) (l : Lnk) (cls slots : Nat) : M :=
  let x := s.m.link l
  let need := buffersOf (cls, slots)
  s.m.setLink l (if listLe need x.rxPend then { x with rxPend := listSub x.rxPend need } else { x with rxFree := listSub x.rxFree need })

/-- The request that a message spells. -/
def State.req (s : State) (h : ReqHdr) (op : Op) (mask : Mask) (data : Data) : Req :=
  ⟨op, h.port, h.tag, h.agent, h.line, h.opf, h.flag, mask, data, h.priv, 0, s.m.now, 0, [], 0, false, none, false,
    false⟩
/-- `s` once the port has recorded a request of `slots` data slots: its buffer is accounted for, its tag is in use, the counter of
requests has counted it, and the sampler has seen it (a configuration access it does not sample). -/
def State.recorded (s : State) (h : ReqHdr) (op : Op) (mask : Mask) (data : Data) (slots : Nat) : M :=
  let m := (s.received h.port.lnk 0 slots).setPort h.port { s.m.port h.port with
    outstanding := (s.m.port h.port).outstanding ++ [(h.tag, h.agent, s.m.mode.gen)] }
  let m := count s.env m h.port.lnk.island 6 1 (some h.agent)
  if op.cfg then m else sampleRequest s.env m (s.req h op mask data)
/-- The message is well formed for its port (steps 1 to 4 of R426): its link is ACTIVE with buffers for it, its agent is one of the
port's, its tag is free, and no mask bit lies outside slot_map. -/
def Formed (s : State) (h : ReqHdr) (op : Op) (mask : Mask) : Prop :=
  Buffered s h.port.lnk 0 (s.req h op mask 0).slots ∧ agentPort h.agent = h.port
    ∧ (s.m.port h.port).outstanding.any (fun x => x.1 == h.tag) = false ∧ maskSlot h op mask = false
/-- Nothing that R426 checks is against a request: neither its link nor its agent is fenced, its agent is mapped, no recovery interval
is open, its reserved fields are 0, and its fields are legal. -/
def Admitted (s : State) (h : ReqHdr) (op : Op) (mask : Mask) : Prop :=
  Formed s h op mask ∧ linkFenced s.env s.m h.port.lnk = false ∧ agentFenced s.env s.m h.agent = false
    ∧ (s.m.port h.port).agentMap.getLsbD (h.agent.toNat % 32) = true ∧ (s.m.port h.port).interval = none
    ∧ hdrReserved h op = false ∧ fieldError h op = none
/-- The port holds back neither the request nor its agent: no QUIESCE unless it is an eviction, and an empty hold queue. -/
def Passes (s : State) (h : ReqHdr) (op : Op) : Prop :=
  (s.m.holding = false ∨ op.isEvict = true) ∧ ((s.m.port h.port).epochsOf h.agent).hold = []

/-- No configuration request that a hold queue has released is still to be served (R276, R390). -/
def NoneReady (s : State) : Prop := (s.m.port .hpa).cfgReady = [] ∧ (s.m.port .hpb).cfgReady = []

/-! ### Register accesses (chapter 18) -/

/-- An access of register `w` in the direct window reaches it: the path can make accesses, it is allowed, the register exists, and the
clocks of its island and of the XBR are good (the AON island needs neither). -/
def Reaches (s : State) (a : Acc) (w : Nat) (write : Bool) : Prop :=
  Live s ∧ pathUp s.m a.path = true ∧ target (regAddr w) = .direct w true ∧ allowed s.env s.m a (.direct w true) write = true
    ∧ regAbsent s.fuse.variant w = false
    ∧ (regIsland w = 31 ∨ (s.m.isl.clkFail.getLsbD (regIsland w) = false ∧ s.m.isl.clkFail.getLsbD 16 = false))
/-- `s` with the island of register `w` awake (R78). -/
def State.woken (s : State) (w : Nat) : M := wakeIsland s.env s.m (regIsland w)
/-- `s` with `m`, and with the settings that the command has written applied. -/
def State.applied (s : State) (m : M) : State :=
  { s with cfg := m.settings.foldl (applySetting s.fuse) s.cfg, m := { m with settings := [] } }
/-- `m` with the word that an access returns; a write returns 0. -/
def returning (m : M) (v : Word) : M := m.setAcc fun x => { x with readData := v }

/-! ### Invariants -/

/-- The settings are within the bounds of their commands and registers: the RAT is canonical, and every valid entry of it passes the
checks of RAT_WRITE (R151), the floor does not exceed the grant nor the grant 190,000 ink (R656), no hint policy is reserved (R228), the sampling
exponent is 4 to 20 over some port (R665), the histogram shift is 3 to 10 (R869), and patrol has an interval of 60 to
10,080 minutes and a target (R658). -/
def Cfg.Legal (c : Cfg) : Prop :=
  Tab.wf (fun _ => RatEntry.empty) c.rat = true ∧ (∀ n < 64, (ratEntry c.rat n).valid → (ratEntry c.rat n).legal)
    ∧ c.floor ≤ c.grant ∧ c.grant ≤ 190000 ∧ c.floorNext ≤ c.grantNext ∧ c.grantNext ≤ 190000
    ∧ c.appPolicy.extractLsb' 0 2 ≠ 3 ∧ c.appPolicy.extractLsb' 2 2 ≠ 3
    ∧ (4 ≤ c.smpExp ∧ c.smpExp ≤ 20) ∧ c.smpMask ≠ 0
    ∧ (3 ≤ c.histShift ∧ c.histShift ≤ 10)
    ∧ (60 ≤ c.patrolMinutes ∧ c.patrolMinutes ≤ 10080) ∧ c.patrolTargets ≠ 0

end Sys2Proof.Machine
end

