-- ==== Sys2Proof/Certificates/Slice0/Obligations.lean ====
section
/-!
DEFINITION. The statements for the provers, from the rules of the specification.

A statement about a command gives the state that `exec` answers, whole: what the right side does not change, the command leaves as it
was.  Its hypotheses are on the state and the operands alone.
-/

open Sys2Proof Sys2Proof.Machine

/-- A step takes the command at the front of the queue, with the queue's rest in the state; with an empty queue the block goes on by
itself (the model's choice, log entry 10): a running device sees one AON tick pass and then serves the configuration requests that
hold queues have released (R276), any other nothing. -/
def Obligations.StepRunsFront : Prop :=
  (∀ (s : State) (c : Instr) (rest : List Instr), s.pending = c :: rest → step s = exec c { s with pending := rest })
    ∧ (∀ s : State, s.pending = [] → Live s → NoneReady s →
      step s = .next (s.applied (elapse s.env s.m 1)) ∧ (elapse s.env s.m 1).now = s.m.now + 1)
    ∧ (∀ s : State, s.pending = [] → Live s → ¬ NoneReady s →
      step s = .next (s.applied (fin s.env (serveReady s.env (elapse s.env s.m 1)))))
    ∧ (∀ s : State, s.pending = [] → ¬ Live s → step s = .next s)

/-- Every command completes, in every state outside manufacturing test. In manufacturing test the device's behaviour lies outside the
specification (R919): there a cold reset, its end, the level of TEST_EN and the supply of the slip still act, and every other command
is refused by that name.  Where the specification leaves a choice it follows the model's, log entry 124. -/
def Obligations.OnlyTestModeStops : Prop :=
  ∀ (c : Instr) (s : State),
    (s.m.pins.testSampled = false → ∃ t, exec c s = .next t)
    ∧ (s.m.pins.testSampled = true →
      match c with
      | .coldReset | .coldRstNRise _ _ _ | .testEnChange _ | .vddAonLoss => ∃ t, exec c s = .next t
      | _ => exec c s = .refused .manufacturingTest)

/-- A device held in reset, tripped or held by a boundary-scan instruction takes no command (R879, R733, R936): only the reset, the
straps, the supply of the slip and the TAP, which no reset of the device touches (R932), act on it. -/
def Obligations.HeldInReset : Prop :=
  ∀ (c : Instr) (s : State), s.m.alive = false → s.m.pins.testSampled = false →
    match c with
    | .coldReset | .coldRstNRise _ _ _ | .testEnChange _ | .vddAonLoss | .tapReset | .jtagExtest | .jtagHighz | .jtagClamp
      | .jtagRegAccess _ => True
    | _ => exec c s = .next s

/-- What no command touches, and what few do: the queue of the waiting commands, the fuses (R8), and the settings, which only the commands
that set them, register accesses, the epoch boundary and the resets change. -/
def Obligations.FusesAndSettingsKept : Prop :=
  ∀ (c : Instr) (s t : State), exec c s = .next t →
    t.pending = s.pending ∧ t.fuse = s.fuse
    ∧ match c with
      | .ratWrite _ | .inkGrant _ | .inkFloor _ | .patrolCfg _ | .sampleCfg _ | .logPolicy _ | .appCfg _ | .epochBoundary _ => True
      | .coldReset | .warmReset | .warmResponseWait | .warmDrainEnd | .jtagExtest | .jtagHighz | .jtagClamp => True
      | .cfgRd _ | .cfgWr _ | .smbusRegRead _ _ | .smbusRegWrite _ _ _ _ | .jtagRegAccess _ => True
      | .quoRead _ _ | .quoWrite _ _ _ | .quoBreak _ _ | .mbxDoorbell _ _ _ | .jpcCtlRestart _ | .jpcCtlHalt _ | .prfSnapStart _ => True
      | .pmcLoRead _ _ | .pmcHiRead _ _ | .pmcLoWrite _ _ _ | .rcRegisterRead _ _ | .errAlertRead _ | .selectorData0Read _ _ => True
      | .selectorWrite _ _ _ | .imposeResultRead _ _ | .histShiftWrite _ _ | .linkCfgThresholdWrite _ _ _ => True
      | .linkCfgHoldDownWrite _ _ _ | .dacTimingWrite _ _ _ _ | .appPolicyWrite _ _ | .memportEquivWrite _ _ => True
      | .bitAliasWrite _ _ _ | .mirrorWindowRead _ _ | .ringWindowAccess _ _ _ _ | .regWrite _ _ _ => True
      | _ => t.cfg = s.cfg

/-- At reset the settings are legal, on every variant, the queue is empty, and the device is held in reset.  Where the specification
leaves a choice it follows the model's, log entries 1 and 9. -/
def Obligations.ResetLegal : Prop :=
  (∀ v : Variant, (Cfg.reset v).Legal) ∧ State.reset.cfg.Legal ∧ State.reset.pending = [] ∧ State.reset.m.alive = false

/-- Every step keeps the settings legal, whatever command is in front and whatever state the machine is in: a valid RAT entry has passed
the checks of RAT_WRITE (R151), the floor never exceeds the grant (R656), no hint policy is reserved (R229), and the sampling (R665),
the histogram shift (R869) and patrol (R658) stay within their bounds. -/
def Obligations.StepKeepsLegal : Prop :=
  ∀ (s t : State), s.cfg.Legal → step s = .next t → t.cfg.Legal

/-- INFO_GET, COLOPHON_GET and FW_VERSION return what Table 13.4 lists and change nothing but their rings. They are served from every
descriptor, before READY and in RECOVERY.  LINK_STATUS returns the state, the settings, the counters and the failed lanes of a link
without clearing anything (R643, R644).  PAIR_STATUS reports the pair from every descriptor, before READY too (R650, Table 13.7). 
Where the specification leaves a choice it follows the model's, log entries 35 and 132. -/
def Obligations.StatusReports : Prop :=
  (∀ (s : State) (d : Desc), Taken s d true true true →
     (descOnly d [] = true → exec (.infoGet d) s = .next (s.withM (s.ok d 0x0100 (s.took d)
       (resAt 8 s.fuse.caps.toNat ||| resAt 12 s.fuse.serial.toNat
         ||| resAt 28 (if s.m.jpc.fw = .recovery then 0 else s.m.jpc.version.toNat)
         ||| resAt 32 (bit s.m.pins.pairSide) ||| resAt 33 (0x58 + s.m.pins.smbStraps.toNat)
         ||| resAt 34 (if s.fuse.variant.ckl then s.m.twin.st.n else 0) ||| resAt 35 s.m.jpc.fw.n))))
     ∧ (descOnly d [(8, 1)] = true → descArg d 8 1 = 0 → exec (.colophonGet d) s = .next (s.withM (s.ok d 0x0101 (s.took d)
       (resAt 8 (s.fuse.serial.extractLsb' 0 32).toNat ||| resAt 12 (s.fuse.serial.extractLsb' 32 8).toNat
         ||| resAt 13 (s.fuse.serial.extractLsb' 40 8).toNat ||| resAt 14 (s.fuse.serial.extractLsb' 48 8).toNat
         ||| resAt 16 (s.fuse.serial.extractLsb' 56 48).toNat ||| resAt 22 (s.fuse.serial.extractLsb' 104 8).toNat
         ||| resAt 24 (s.fuse.serial.extractLsb' 112 16).toNat
         ||| resAt 26 (bit (serialCheck (s.fuse.serial.setWidth 112) == s.fuse.serial.extractLsb' 112 16))))))
     ∧ (descOnly d [(8, 1)] = true → descArg d 8 1 = 1 → exec (.colophonGet d) s = .next (s.withM (s.ok d 0x0101 (s.took d)
       (resAt 8 (bit s.fuse.sigRequired) ||| resAt 12 s.fuse.keyHash.toNat))))
     ∧ (descOnly d [] = true → exec (.fwVersion d) s = .next (s.withM (s.ok d 0x0102 (s.took d)
       (resAt 8 (if s.m.jpc.fw = .recovery then 0 else s.m.jpc.version.toNat)
         ||| resAt 12 (if (if s.m.jpc.slot then s.m.jpc.record.valid0 else s.m.jpc.record.valid1)
             then (s.m.jpc.versions.getD (1 - bit s.m.jpc.slot) 0).toNat else 0)
         ||| resAt 16 (bit s.m.jpc.slot) ||| resAt 17 (bit s.m.jpc.trialRun) ||| resAt 18 (bit s.m.jpc.record.rolledBack)
         ||| resAt 19 (bit s.m.jpc.sigChecked) ||| resAt 20 s.fuse.romVersion.toNat)))))
  ∧ (∀ (s : State) (d : Desc) (l : Lnk), Taken s d true true false → descOnly d [(8, 1)] = true → linkArg d = some l →
      (l = .ckl → s.fuse.variant.ckl = true) →
      exec (.linkStatus d) s = .next (s.withM (s.ok d 0x0500 (s.took d)
        (resAt 8 (linkStat (s.m.link l)).toNat ||| resAt 12 (rd s.env s.m (rLinkCfg l)).toNat
          ||| (List.range 6).foldl (fun r k => r ||| resAt (16 + 4 * k) (linkView s.env (s.took d) l (l.base + 2 + k)).toNat) (0 : BitVec 448)
          ||| resAt 40 (s.m.link l).rxFailed.toNat ||| resAt 44 (s.m.link l).txFailed.toNat
          ||| resAt 48 (s.m.link l).winBad.length))))
  ∧ (∀ (s : State) (d : Desc), Taken s d true true false → s.fuse.variant.ckl = true → descOnly d [] = true →
      exec (.pairStatus d) s = .next (s.withM (s.ok d 0x0601 (s.took d)
        (resAt 8 (pairStat s.m).toNat ||| resAt 12 s.m.mir.serial.toNat ||| resAt 28 ((s.m.mir.sent - s.m.mir.answered) % 65536)
          ||| resAt 30 ((s.m.mir.received - s.m.mir.replied) % 65536)
          ||| resAt 32 (match s.m.mir.heard with
            | some t => min ((s.m.now - t) / 50) 0xFFFFFFFF
            | none => 0xFFFFFFFF)
          ||| resAt 36 (s.m.link .ckl).st.n ||| resAt 37 (bit s.m.pins.pairSide)))))

/-- MODE_SET and MODE_CLEAR change all their modes at once and answer with the modes and the settling mask after the change; MODE_QUERY
returns both, the pair state and the degraded bit (R625 to R630).  MODE_SET returns STATE_CONFLICT, with MODE_SETTLING while the exit
of MIRROR or PROOF that it would undo is not complete (R695), and with SOLO_MANAGED where it names SOLO; MODE_CLEAR with SOLO_MANAGED
for SOLO, with DRAIN_BY_PAIR where the pair set DRAIN (R545), and with PAIR_STATE for DRAIN in SPLIT (R698). Nothing but the rings
changes.  MODE_SETTLED clears the settling bit of a mode whose entry or exit has finished (R686, Table 14.2).  Where the specification
leaves a choice it follows the model's, log entries 108 and 109. -/
def Obligations.ModesChangeAndSettle : Prop :=
  (∀ (s : State) (d : Desc) (mask : BitVec 12),
     (Taken s d false false false → descOnly d [(8, 2)] = true → descArg d 8 2 = mask.toNat → mask ≠ 0 → mask.getLsbD 11 = false →
       BitVec.ofNat 16 mask.toNat &&& absentModes s.fuse.variant = 0 →
       (mask.getLsbD mMirror = true → s.m.modeBit mMirror = true ∨ s.m.coh.sweeps.any (fun x => x.2 == .mirrorExit) = false) →
       (mask.getLsbD mProof = true → s.m.modeBit mProof = true ∨ s.m.proof.runs.any (fun r => r.state == 1) = false) →
       exec (.modeSet d) s = .next (s.after (s.ok d 0x0200 (changeModes s.env (s.took d) mask 0)
         (modeResult (changeModes s.env (s.took d) mask 0)))))
     ∧ (Taken s d false false false → descOnly d [(8, 2)] = true → descArg d 8 2 = mask.toNat → mask ≠ 0 → mask.getLsbD 11 = false →
       (mask.getLsbD mDrain = true → s.m.twin.drainByPair = false ∧ s.m.twin.st ≠ .split) →
       exec (.modeClear d) s = .next (s.after (s.ok d 0x0201 (changeModes s.env (s.took d) 0 mask)
         (modeResult (changeModes s.env (s.took d) 0 mask)))))
     ∧ (Taken s d true true false → descOnly d [] = true →
       exec (.modeQuery d) s = .next (s.withM (s.ok d 0x0202 (s.took d)
         (resAt 8 s.m.modeActive.toNat ||| resAt 10 s.m.mode.settling.toNat ||| resAt 12 s.m.twin.st.n
           ||| resAt 13 (bit (degraded s.m)))))))
  ∧ (∀ (s : State) (d : Desc) (mask : BitVec 12) (waits : Bool), Taken s d false false false → descOnly d [(8, 2)] = true →
      descArg d 8 2 = mask.toNat → mask ≠ 0 →
      waits = (mask.getLsbD mMirror && !s.m.modeBit mMirror && s.m.coh.sweeps.any (fun x => x.2 == .mirrorExit)
        || mask.getLsbD mProof && !s.m.modeBit mProof && s.m.proof.runs.any (fun r => r.state == 1)) →
      (BitVec.ofNat 16 mask.toNat &&& absentModes s.fuse.variant = 0 →
        (waits = true → exec (.modeSet d) s = .next (s.after
          (postRsp s.env (s.took d) d 0x0200 0x13 (privileged s.m d) (conflictResult (s.took d) 4))))
        ∧ (waits = false → mask.getLsbD 11 = true → exec (.modeSet d) s = .next (s.after
          (postRsp s.env (s.took d) d 0x0200 0x13 (privileged s.m d) (conflictResult (s.took d) 6)))))
      ∧ (mask.getLsbD 11 = true → s.fuse.variant.ckl = true → exec (.modeClear d) s = .next (s.after
        (postRsp s.env (s.took d) d 0x0201 0x13 (privileged s.m d) (conflictResult (s.took d) 6))))
      ∧ (mask.getLsbD 11 = false → mask.getLsbD mDrain = true →
        (s.m.twin.drainByPair = true → exec (.modeClear d) s = .next (s.after
          (postRsp s.env (s.took d) d 0x0201 0x13 (privileged s.m d) (conflictResult (s.took d) 7))))
        ∧ (s.m.twin.drainByPair = false → s.m.twin.st = .split → exec (.modeClear d) s = .next (s.after
          (postRsp s.env (s.took d) d 0x0201 0x13 (privileged s.m d) (conflictResult (s.took d) 8))))))
  ∧ (∀ (s : State) (n : Fin 12), Live s → s.m.mode.settling.getLsbD n = true → finished s.m n = true →
      exec (.modeSettled n) s = .next (s.after (s.m.setMode fun x => { x with settling := x.settling &&& ~~~((1 : BitVec 12) <<< n.val) })))

/-- One change of the mode register names all its modes at once (R689): the modes of `set` are set, those of `clear` are clear, every
other mode is as it was, and SOLO follows the pair state (R687). -/
def Obligations.ModeRegisterChange : Prop :=
  ∀ (e : Env) (m : M) (set clear : BitVec 12) (n : Fin 11),
    (writeModes e m set clear).modeBit n = ((m.modeBit n || set.getLsbD n) && !clear.getLsbD n)
    ∧ (writeModes e m set clear).modeBit 11 = m.twin.solo

/-- RAT_WRITE replaces one entry and counts the write; RAT_READ returns an entry; both return the CRC of the whole table (R151, R155,
R631, R633). RAT_SYNC empties every attribute cache and waits for the requests that have looked up a span (R163).  RAT_SYNC_TIMEOUT: a
RAT_SYNC that still waits ends TIMEOUT 10 ms after its start (R164).  Where the specification leaves a choice it follows the model's,
log entry 114. -/
def Obligations.RatAndSync : Prop :=
  (∀ (s : State) (d : Desc) (n : Fin 64),
     (Taken s d false false false → descOnly d [(8, 1), (16, 16)] = true → descArg d 8 1 = n → (ratArg d).legal = true →
       s.m.twin.st ≠ .hello → s.m.twin.st ≠ .shed →
       exec (.ratWrite d) s = .next { s.withM (s.ok d 0x0300 (s.took d)
           (resAt 8 (ratCrc (Tab.put (fun _ => RatEntry.empty) s.cfg.rat n (ratArg d))).toNat)) with
         cfg := { s.cfg with rat := Tab.put (fun _ => RatEntry.empty) s.cfg.rat n (ratArg d), ratWrites := s.cfg.ratWrites + 1 } })
     ∧ (Taken s d true false false → descOnly d [(8, 1)] = true → descArg d 8 1 = n →
       exec (.ratRead d) s = .next (s.withM (s.ok d 0x0301 (s.took d)
         (resAt 8 (ratEntry s.cfg.rat n).word0.toNat ||| resAt 16 (ratEntry s.cfg.rat n).word1.toNat
           ||| resAt 24 (ratCrc s.cfg.rat).toNat))))
     ∧ (Taken s d false false false → descOnly d [] = true → s.m.jpc.accepted.length < 16 →
       exec (.ratSync d) s = .next (s.after ((s.accepted d 0x0302 10 0 0 0).setCoh fun c => { c with
         spans := [], syncs := c.syncs ++ [(s.jobId, c.looked)] }))))
  ∧ (∀ (s : State) (id : Nat) (a : Accepted), Live s → s.m.acceptedCmd id = some a →
      s.m.coh.syncs.any (fun x => x.1 == id) = true → s.m.jpc.fw = .running →
      exec (.ratSyncTimeout id) s = .next (s.after
        (finishCmd s.env ((elapseTo s.env s.m (a.start + 500000)).setCoh fun c =>
          { c with syncs := c.syncs.filter fun x => x.1 != id }) id 0x18 0)))

/-- The CACHE commands (R635 to R642): FLUSH_RANGE and INVAL_RANGE flush the sticks of the range and note its lines, with `recall` also
recalling what agents hold, and INVAL_RANGE also notes the lines of its range with an armed reservation (Table 5.6); DRAIN_START sets
DRAIN; DRAIN_STATUS reports.  RANGE_CMD_COMPLETE ends a FLUSH_RANGE or a DRAIN_START whose work is done, RANGE_CMD_LIMIT one whose
limit passes first, with the counts so far (R638, R641, R642). -/
def Obligations.CacheAndRanges : Prop :=
  (∀ (s : State) (d : Desc) (base top : Nat), descArg d 16 8 = base → descArg d 24 8 = top →
     (∀ a m, a = s.accepted d 0x0400 (descArg d 12 4) base top 0 → m = sweepLookups s.env (flushLines s.env a (inRange a base top) 5) →
       Taken s d false false false → rangeBad d = false → s.m.jpc.accepted.length < 16 →
       (descArg d 8 1 = 0 → exec (.flushRange d) s = .next (s.after
         (m.updCmd s.jobId fun a => { a with todo := rangeLines m base top 2 })))
       ∧ (descArg d 8 1 = 1 → exec (.flushRange d) s = .next (s.after
         (recallLines s.env (m.updCmd s.jobId fun a => { a with todo := rangeLines m base top 2 }) .recallFlush
           (rangeHeld (m.updCmd s.jobId fun a => { a with todo := rangeLines m base top 2 }) base top) s.jobId))))
     ∧ (∀ a held m ls, a = s.accepted d 0x0401 (descArg d 12 4) base top 0 →
       held = (if descArg d 8 1 = 1 then rangeHeld a base top else []) →
       m = recallLines s.env (sweepLookups s.env (flushLines s.env a (inRange a base top) 5)) .recallInval held s.jobId →
       Taken s d false false false → rangeBad d = false → s.m.jpc.accepted.length < 16 →
       ls = ((rangeLines m base top 1).filter fun l => !held.contains l) →
       exec (.invalRange d) s = .next (s.after (invalLines s.env (m.updCmd s.jobId fun a => { a with
         todo := ls ++ ((rangeSlots m base top).filter fun l => !held.contains l && !ls.contains l).dedup }) s.jobId)))
     ∧ (Taken s d false false false → descOnly d [(12, 4)] = true → s.m.jpc.accepted.length < 16 →
       exec (.drainStart d) s = .next (s.after
         (changeModes s.env (s.accepted d 0x0402 (descArg d 12 4) 0 0 0) (1 <<< mDrain) 0)))
     ∧ (Taken s d true false false → descOnly d [] = true →
       exec (.drainStatus d) s = .next (s.withM (s.ok d 0x0403 (s.took d)
         (resAt 8 (dirtyPrimary (s.took d)).length ||| resAt 16 s.m.mode.drainedSince ||| resAt 24 s.m.modeActive.toNat
           ||| resAt 26 (bit s.m.twin.drainByPair + 2 * bit (drainClean (s.took d))))))))
  ∧ (∀ (s : State) (id : Nat) (a : Accepted), Live s → s.m.acceptedCmd id = some a → a.opcode = 0x0400 ∨ a.opcode = 0x0402 →
      (∀ status, rangeDone s.env s.m a = some status →
        exec (.rangeCmdComplete id) s = .next (s.after (finishCmd s.env s.m id status (rangeResult a))))
      ∧ (∀ t, rangeDone s.env s.m a = none → a.deadline = some t → s.m.jpc.fw = .running →
        exec (.rangeCmdLimit id) s = .next (s.after (finishCmd s.env ((elapseTo s.env s.m t).setCoh fun c =>
          { c with waiting := c.waiting.filter fun r => r.op.host || r.cmd != id }) id 0x18 (rangeResult a)))))

/-- The LINK commands act on an ACTIVE link that is neither fenced nor held (R645 to R649): RETRAIN enters RETRAIN and waits for the link;
FULL holds the link DOWN for 10 µs; LINK_WIDTH sets the maximum width and retrains the link where that changes its groups;
LINK_ERR_POLICY sets the threshold of R357.  FULL_RETRAIN_HOLD_END ends the hold of a full retrain 10 µs after its start, and
LINK_CMD_TIMEOUT ends a full retrain whose link is not ACTIVE within its 100 ms with TIMEOUT (R646).  Where the specification leaves a
choice it follows the model's, log entry 78. -/
def Obligations.LinksAndFullRetrain : Prop :=
  (∀ (s : State) (d : Desc) (l : Lnk), Taken s d false false false → linkArg d = some l → (l = .ckl → s.fuse.variant.ckl = true) →
     s.m.jpc.accepted.length < 16 → linkFenced s.env s.m l = false → holdDown s.env s.m l = false →
     (descOnly d [(8, 2)] = true → (s.m.link l).st = .active → descArg d 9 1 = 0 →
       exec (.linkRetrain d) s = .next (s.after
         (enterRetrain s.env (awaitLink (s.accepted d 0x0501 0 0 0 0) l s.jobId) l)))
     ∧ (descOnly d [(8, 2)] = true → (s.m.link l).st = .active → descArg d 9 1 = 1 →
       (l = .ckl → s.m.twin.st ≠ .hello ∧ s.m.twin.st ≠ .shed ∧ s.m.twin.st ≠ .paired ∧ s.m.twin.st ≠ .releasing) →
       ∀ m, m = linkDown s.env (setHoldDown s.env (s.accepted d 0x0501 100 1 0 0) l true) l 0xC →
       exec (.linkRetrainFull d) s = .next (s.after
         (awaitLink (m.setLink l { m.link l with fullHold := true, downReason := 0xC }) l s.jobId)))
     ∧ (descOnly d [(8, 2)] = true → (s.m.link l).st = .active → descArg d 9 1 ≠ 0 → descArg d 9 1 ≤ groupCount l.allGroups →
       ∀ m, m = setWidthMax s.env (s.accepted d 0x0502 0 0 0 0) l (descArg d 9 1) →
       exec (.linkWidth d) s = .next (s.after
         (if (m.link l).st = .retrain then awaitLink m l s.jobId else finishCmd s.env m s.jobId 0 (linkResult (m.link l)))))
     ∧ (descOnly d [(8, 1), (10, 2)] = true → descArg d 10 2 ≠ 0 → descArg d 10 2 < 4096 →
       exec (.linkErrPolicy d) s = .next (s.after (s.ok d 0x0503 (setThreshold s.env (s.took d) l (descArg d 10 2))
         (resAt 8 (threshold s.env s.m l))))))
  ∧ (∀ (s : State) (l : Lnk) (a : Accepted), Live s → s.m.jpc.accepted = [a] → (s.m.link l).cmds = [a.id] → a.base = 1 →
      ((s.m.link l).fullHold = true → linkFenced s.env (elapseTo s.env s.m (a.start + 500)) l = false →
        ∀ m, m = elapseTo s.env s.m (a.start + 500) →
        linkFenced s.env (m.setLink l { m.link l with fullHold := false }) l = false →
        exec (.fullRetrainHoldEnd l) s = .next (s.after
          (setHoldDown s.env (m.setLink l { m.link l with fullHold := false }) l false)))
      ∧ (∀ t, a.deadline = some t →
        exec (.linkCmdTimeout l) s = .next (s.after (finishLink s.env (elapseTo s.env s.m t) l 0x18 fun id =>
          a.id == id && decide (t ≤ (elapseTo s.env s.m t).now)))))

/-- The TWIN commands (R650 to R654): PAIR_START starts an attempt with its limit in ms, 500 by default; PAIR_RELEASE starts to give up
the own side; ADOPT REBUILT clears rebuild_pending; ADOPT FORCE adopts, after discarding frozen mirrors in SPLIT; MIRROR_POLICY sets
the scope and returns the old one.  Where the specification leaves a choice it follows the model's, log entries 90 and 92. -/
def Obligations.TwinCommands : Prop :=
  ∀ (s : State) (d : Desc), Taken s d false false false → s.fuse.variant.ckl = true → s.m.jpc.accepted.length < 16 →
    (descOnly d [(8, 4)] = true → (descArg d 8 4 = 0 ∨ (10 ≤ descArg d 8 4 ∧ descArg d 8 4 ≤ 10000)) →
      linkFenced s.env s.m .ckl = false → (s.m.twin.st = .unpaired ∨ s.m.twin.st = .adopted ∨ s.m.twin.st = .deposed
        ∨ (s.m.twin.st = .split ∧ s.m.twin.drainOwn = true ∧ s.m.twin.drainTwin = true)) →
      exec (.pairStart d) s = .next (s.after (startAttempt s.env (s.accepted d 0x0600 0 0 0 0) s.jobId
        (if descArg d 8 4 = 0 then 500 else descArg d 8 4))))
    ∧ (descOnly d [] = true → s.m.twin.st = .paired →
      exec (.pairRelease d) s = .next (s.after (startShed s.env (((s.accepted d 0x0602 0 0 0 0).setTwin fun t =>
        { t with st := .releasing, catchup := 0 }).setMir fun r => { r with relCmd := s.jobId }))))
    ∧ (descOnly d [(8, 1)] = true → descArg d 8 1 = 1 → s.m.twin.st = .adopted → s.m.twin.rebuildPending = true →
      exec (.adoptRebuilt d) s = .next (s.after (s.ok d 0x0603
        ((s.took d).setTwin fun t => { t with rebuildPending := false }) 0)))
    ∧ (descOnly d [(8, 1)] = true → descArg d 8 1 = 2 → (s.m.twin.st = .suspect ∨ s.m.twin.st = .isolated) →
      exec (.adoptForce d) s = .next (s.after (s.ok d 0x0603 (adopt s.env (s.took d)) 0)))
    ∧ (descOnly d [(8, 1)] = true → descArg d 8 1 = 2 → s.m.twin.st = .split →
      ∀ m n, discardMirrors s.env (s.took d) = (m, n) →
      exec (.adoptForce d) s = .next (s.after (s.ok d 0x0603
        (adopt s.env (log s.env m 0x060A srcCkl (BitVec.ofNat 32 n) 0 0)) (resAt 8 n))))
    ∧ (descOnly d [(8, 1)] = true → descArg d 8 1 < 2 →
      exec (.mirrorPolicy d) s = .next (s.withM (s.ok d 0x0604
        (wr s.env (s.took d) rScope (BitVec.ofNat 32 (descArg d 8 1))) (resAt 8 (fld (rd s.env s.m rScope) 0 1)))))

/-- The INK commands (R655, R656): INK_GRANT and INK_FLOOR set the value that applies from the next epoch and return the one commanded
before (the model checks each against the newest commanded value of the other, log entry 62); INK_REPORT and INK_PLAN_QUERY return the
last complete epoch.  Where the specification leaves a choice it follows the model's, log entries 6, 62 and 110. -/
def Obligations.InkCommands : Prop :=
  ∀ (s : State) (d : Desc) (v : Nat), descArg d 8 4 = v →
    (Taken s d false false false → descOnly d [(8, 4)] = true → v ≠ 0 → v ≤ 190000 → s.cfg.floorNext.toNat ≤ v →
      exec (.inkGrant d) s = .next { s.withM (s.ok d 0x0700 (s.took d) (resAt 8 s.cfg.grantNext.toNat)) with
        cfg := { s.cfg with grantNext := BitVec.ofNat 18 v } })
    ∧ (Taken s d false false false → descOnly d [(8, 4)] = true → v ≤ 190000 → v ≤ s.cfg.grantNext.toNat →
      exec (.inkFloor d) s = .next { s.withM (s.ok d 0x0701 (s.took d) (resAt 8 s.cfg.floorNext.toNat)) with
        cfg := { s.cfg with floorNext := BitVec.ofNat 18 v } })
    ∧ (Taken s d true false false → descOnly d [] = true →
      exec (.inkReport d) s = .next (s.withM (s.ok d 0x0702 (s.took d)
        (resAt 8 ((rd s.env s.m 0x5005).toNat + (rd s.env s.m 0x5006).toNat * 2 ^ 32) ||| resAt 16 (rd s.env s.m 0x5007).toNat
          ||| resAt 20 (rd s.env s.m 0x5008).toNat ||| resAt 24 (rd s.env s.m 0x5009).toNat ||| resAt 28 s.m.ink.last.balance
          ||| resAt 32 s.m.ink.last.grant ||| resAt 36 s.m.ink.last.floor ||| resAt 40 (rd s.env s.m 0x500A).toNat
          ||| resAt 44 (bit s.m.ink.last.cap + 2 * bit (decide ((rd s.env s.m 0x5007).toNat < 40000)))))))
    ∧ (Taken s d true false false → descOnly d [] = true →
      exec (.inkPlanQuery d) s = .next (s.withM (s.ok d 0x0703 (s.took d)
        (resAt 8 (planRecord s.m.ink.last [2, 4]) ||| resAt 16 (planRecord s.m.ink.last [3])
          ||| resAt 24 (planRecord s.m.ink.last [0]) ||| resAt 32 (planRecord s.m.ink.last [1])
          ||| resAt 40 (planRecord s.m.ink.last [5])))))

/-- The PATROL and PROOF commands (R657 to R661): PATROL_CFG sets the period, the targets and diagnosis and returns the old ones;
PROOF_RUN queues a run under the next run_id and starts what its groups allow; PROOF_STATUS reports a run; PROOF_ABORT orders its
stop.  PROOF_RUN_END ends a run that has done its steps, found a fault or been stopped; PROOF_RUN_LIMIT stops one at its limit, which
ends it at once between two steps (R660, R744).  Where the specification leaves a choice it follows the model's, log entries 63, 64
and 112. -/
def Obligations.ProofRuns : Prop :=
  (∀ (s : State) (d : Desc),
     (Taken s d false false false → descOnly d [(8, 6)] = true → 60 ≤ descArg d 8 4 → descArg d 8 4 ≤ 10080 → descArg d 12 1 ≠ 0 →
       descArg d 12 1 < 4 → descArg d 13 1 < 2 →
       exec (.patrolCfg d) s = .next { s.withM (s.ok d 0x0800 (s.took d)
           (resAt 8 s.cfg.patrolMinutes.toNat ||| resAt 12 s.cfg.patrolTargets.toNat ||| resAt 13 (bit s.cfg.patrolDiag))) with
         cfg := { s.cfg with
           patrolMinutes := BitVec.ofNat 32 (descArg d 8 4), patrolTargets := BitVec.ofNat 2 (descArg d 12 1)
           patrolDiag := descArg d 13 1 == 1 } })
     ∧ (∀ (i : ItemInfo) (r : Run), itemInfo s.fuse.variant (descArg d 8 2) = some i →
       r = ⟨s.m.proof.nextRun, BitVec.ofNat 16 (descArg d 8 2), descArg d 10 2, 0, 0, i.steps, false, false, 0, 0, 0, false, 0⟩ →
       Taken s d false false false → descOnly d [(8, 8)] = true → descArg d 10 2 < i.units → s.m.jpc.accepted.length < 16 →
       (descArg d 8 2 = 5 → s.fuse.variant.far = true) →
       (descArg d 8 2 = 0x102 → dacPresent s.env (descArg d 10 2) = true) → s.m.modeBit mProof = true →
       (i.offline = true → s.m.modeBit mQuiesce = true ∧ s.m.mode.settling.getLsbD mQuiesce = false) →
       s.m.proof.runs.any (fun o => o.state == 1 && sameUnit o r) = false →
       exec (.proofRun d) s = .next (s.after (startQueued (pruneRuns
         ((s.accepted d 0x0801 (descArg d 12 4) 0 0 (resAt 8 s.m.proof.nextRun.toNat)).setProof fun p => { p with
           runs := p.runs ++ [{ r with cmd := s.jobId }], nextRun := nextRunId p.nextRun })))))
     ∧ (∀ r, knownRun s.m (BitVec.ofNat 16 (descArg d 8 2)) = some r → Taken s d true false false → descOnly d [(8, 2)] = true →
       exec (.proofStatus d) s = .next (s.withM (s.ok d 0x0802 (s.took d)
         (resAt 8 r.id.toNat ||| resAt 10 r.state ||| resAt 11 (r.step * 100 / r.steps)
           ||| resAt 12 (if r.state = 2 then r.verdict else 0) ||| resAt 14 r.item.toNat ||| resAt 16 r.faults))))
     ∧ (∀ r, knownRun s.m (BitVec.ofNat 16 (descArg d 8 2)) = some r → r.state ≠ 2 → Taken s d false false false →
       descOnly d [(8, 2)] = true →
       exec (.proofAbort d) s = .next (s.withM (s.ok d 0x0803
         (stopRuns (s.took d) (fun x => x.id == BitVec.ofNat 16 (descArg d 8 2)) 0x1A) 0))))
  ∧ (∀ (s : State) (id : BitVec 16) (r : Run), Live s → s.m.runOf id = some r → s.m.jpc.fw = .running → r.state ≠ 2 →
      (r.stopping = true ∨ runReady r = true → exec (.proofRunEnd id) s = .next (s.after (endRun s.env s.m r)))
      ∧ (∀ a t, s.m.acceptedCmd r.cmd = some a → a.deadline = some t → r.stopping = false → runReady r = false →
        r.evacuating = false → r.window = false →
        exec (.proofRunLimit id) s = .next (s.after
          (endRun s.env (stopRuns (elapseTo s.env s.m t) (fun x => x.id == id) 0x18) { r with stopping := true, status := 0x18 }))))

/-- The PERF commands (R662 to R666): PERF_CFG wakes the block's island (R78), writes a counter's control word, clears the counter where
asked and returns the old setting; PERF_SNAP starts a walk, and its response is owed until the walk ends; SAMPLE_CFG and
PERF_USER_GRANT set their values and return the old ones.  Where the specification leaves a choice it follows the model's, log entries
38 and 99. -/
def Obligations.PerfCommands : Prop :=
  ∀ (s : State) (d : Desc),
    (∀ i n base p k, perfBlock (descArg d 8 1) (descArg d 9 1) = some (i, n) → ctrGroup i = some (base, p, k) →
      Taken s d false false false → descOnly d [(8, 8)] = true → descArg d 10 1 < n → descArg d 11 1 < 4 → descArg d 14 2 < 128 →
      eventListed i (descArg d 12 2) = true → (descArg d 8 1 = 3 → s.fuse.variant.ckl = true) →
      (descArg d 8 1 = 2 → descArg d 9 1 < s.fuse.variant.dacs) →
      ∀ w a m, w = base + p + descArg d 10 1 → a = wakeIsland s.env (s.took d) i →
      m = wr s.env a w (perfCtl (descArg d 11 1) (descArg d 12 2) (descArg d 14 2)) →
      exec (.perfCfg d) s = .next (s.withM (s.ok d 0x0900
        (if descArg d 11 1 / 2 % 2 = 1 then m.setCtr i (descArg d 10 1) 0 else m)
        (resAt 8 (descArg d 8 1 + descArg d 9 1 * 2 ^ 8 + descArg d 10 1 * 2 ^ 16 + fld (rd s.env a w) 23 1 * 2 ^ 24
          + fld (rd s.env a w) 0 16 * 2 ^ 32 + fld (rd s.env a w) 16 7 * 2 ^ 48)))))
    ∧ (Taken s d false false false → descOnly d [] = true →
      exec (.perfSnap d) s = .next (s.withM (startWalk ((s.took d).setPrf fun x => { x with
        snapCmd := some ⟨d, privileged s.m d, s.m.prf.busy⟩ }))))
    ∧ (Taken s d false false false → s.fuse.variant.sample = true → descOnly d [(8, 3)] = true → 4 ≤ descArg d 8 1 →
      descArg d 8 1 ≤ 20 → descArg d 9 1 ≠ 0 → descArg d 9 1 < 4 → descArg d 10 1 < 2 →
      exec (.sampleCfg d) s = .next { s.withM (s.ok d 0x0902 (resample (s.took d))
          (resAt 8 (s.cfg.smpExp.toNat + 2 ^ 8 * s.cfg.smpMask.toNat + 2 ^ 16 * bit s.cfg.smpDither))) with
        cfg := { s.cfg with
          smpExp := BitVec.ofNat 5 (descArg d 8 1), smpMask := BitVec.ofNat 2 (descArg d 9 1), smpDither := descArg d 10 1 == 1 } })
    ∧ (Taken s d false false false → descOnly d [(8, 2)] = true → descArg d 8 1 < 2 → descArg d 9 1 < 2 →
      exec (.perfUserGrant d) s = .next (s.withM (s.ok d 0x0903
        (wr s.env (s.took d) rUserGrant (setFld (rd s.env s.m rUserGrant) (descArg d 8 1) 1 (descArg d 9 1)))
        (resAt 8 (fld (rd s.env s.m rUserGrant) (descArg d 8 1) 1)))))

/-- The LOG commands (R667 to R669): LOG_READ of the errata log returns the entry at an index, or the oldest held for an older one, with
the two ends of the log; of the slip it returns an entry, the two indices open (log entry 65). LOG_CLEAR empties what it names and
logs that; LOG_POLICY sets what LOG_NOTICE forwards and returns the old setting.  Where the specification leaves a choice it follows
the model's, log entries 42 and 65. -/
def Obligations.LogCommands : Prop :=
  ∀ (s : State) (d : Desc),
    (∀ j x, Taken s d false true false → descOnly d [(8, 5)] = true → descArg d 12 1 = 0 →
      logIndex s.m (BitVec.ofNat 32 (descArg d 8 4)) = some j → s.m.err.log.find? (fun y => y.1 == j) = some (j, x) →
      s.m.err.bad = [] →
      exec (.logRead d) s = .next (s.withM (s.ok d 0x0A00 (s.took d)
        (resAt 8 j.toNat ||| resAt 12 s.m.err.oldest.toNat ||| resAt 16 s.m.err.next.toNat ||| resAt 20 (readEntry s.m x (some j))))))
    ∧ (∀ x, Taken s d false true false → descOnly d [(8, 5)] = true → descArg d 12 1 = 1 → descArg d 8 4 < 8 →
      slipEntry s.m (descArg d 8 4) = some x →
      exec (.logRead d) s = .next (s.withM (s.ok d 0x0A00 { s.took d with free := s.m.free + 2 }
        (resAt 8 (descArg d 8 4) ||| resAt 12 (Config.freeWord s.m.free).toNat ||| resAt 16 (Config.freeWord (s.m.free + 1)).toNat
          ||| resAt 20 (readEntry s.m x none)))))
    ∧ (Taken s d false false false → descOnly d [(8, 1)] = true → descArg d 8 1 = 1 → s.m.err.degraded = false →
      exec (.logClear d) s = .next (s.withM (s.ok d 0x0A01
        (log s.env ((s.took d).setErr fun r => { r with log := [], oldest := r.next, bad := [] }) 0x0A02 31 1
          (BitVec.ofNat 32 s.m.err.log.length) 0) (resAt 8 s.m.err.next.toNat))))
    ∧ (Taken s d false false false → descOnly d [(8, 1)] = true → descArg d 8 1 = 2 →
      exec (.logClear d) s = .next (s.withM (s.ok d 0x0A01
        (log s.env ((s.took d).setErr fun r => { r with slip := [] }) 0x0A02 31 2 (BitVec.ofNat 32 s.m.err.slip.length) 0)
        (resAt 8 s.m.err.next.toNat))))
    ∧ (Taken s d false false false → descOnly d [(8, 1), (12, 4)] = true →
      exec (.logPolicy d) s = .next { s.withM (s.ok d 0x0A02 (s.took d)
          (resAt 8 s.cfg.logSeverity.toNat ||| resAt 12 s.cfg.logClasses.toNat)) with
        cfg := { s.cfg with logSeverity := BitVec.ofNat 8 (descArg d 8 1), logClasses := BitVec.ofNat 32 (descArg d 12 4) } })

/-- The FW group (R671 to R674, R594 to R599): FW_STAGE of offset 0 opens a session and marks the staging slot not valid, later chunks
follow one another; FW_COMMIT TRIAL verifies the staged image, whose end makes it the active slot on trial; FW_COMMIT FINAL ends a
trial; FW_RESTART and FW_ROLLBACK answer and then restart the controller.  FW_VERIFY_DONE: a staged image that verifies becomes the
active slot, on trial with no boot counted yet, and the session ends; one that does not is refused with its cause, and the boot record
stays (R596, R672).  Where the specification leaves a choice it follows the model's, log entries 100, 101 and 103. -/
def Obligations.FirmwareImages : Prop :=
  (∀ (s : State) (d : Desc) (off len : Nat), descArg d 8 4 = off → descArg d 12 2 = len →
     (∀ m, m = putFlash (writeRecord ({ s with m := { s.m with free := s.m.free + bit s.m.jpc.session.isSome } }.took d)
         fun r => r.setValid (stagingSlot s.m) false) (slotBase (stagingSlot s.m))
         ((List.range len).map fun k => BitVec.ofNat 8 (descArg d (16 + k) 1)) →
       Taken s d false false true → descOnly d [(8, 6), (16, len)] = true → off = 0 → 0 < len → len ≤ 48 →
       (∀ x, s.m.jpc.session = some x → x.path = ringPath d.ring) →
       exec (.fwStage d) s = .next (s.withM (s.ok d 0x0B00
         (m.setJpc fun j => { j with session := some ⟨ringPath d.ring, len, len⟩ }) (resAt 8 len))))
     ∧ (∀ x left m, s.m.jpc.session = some x → x.path = ringPath d.ring → x.next = off →
       left = x.buffered - Config.activity s.m.free →
       m = putFlash ({ s with m := { s.m with free := s.m.free + 1 } }.took d) (slotBase (stagingSlot s.m) + off)
         ((List.range len).map fun k => BitVec.ofNat 8 (descArg d (16 + k) 1)) →
       Taken s d false false true → descOnly d [(8, 6), (16, len)] = true → 0 < off → 0 < len → len ≤ 48 → off + len ≤ 0x300000 →
       left + len ≤ 65536 →
       exec (.fwStage d) s = .next (s.withM (s.ok d 0x0B00
         (m.setJpc fun j => { j with session := some ⟨ringPath d.ring, off + len, left + len⟩ }) (resAt 8 (off + len)))))
     ∧ (∀ x, s.m.jpc.session = some x → x.path = ringPath d.ring → Taken s d false false true → descOnly d [(8, 1)] = true →
       descArg d 8 1 = 1 → s.m.jpc.accepted.length < 16 →
       exec (.fwCommitTrial d) s = .next (s.withM (s.accepted d 0x0B01 0 0 0 0)))
     ∧ (Taken s d false false false → descOnly d [(8, 1)] = true → descArg d 8 1 = 2 → s.m.jpc.trialRun = true →
       exec (.fwCommitFinal d) s = .next (s.withM (s.ok d 0x0B01
         ((writeRecord (s.took d) fun r => { r with trial := false }).setJpc fun j => { j with trialRun := false }) 0)))
     ∧ (Taken s d false false true → descOnly d [] = true →
       exec (.fwRestart d) s = .next (s.after (restartJpc s.env (s.ok d 0x0B02 (s.took d) 0) 1)))
     ∧ (Taken s d false false false → descOnly d [] = true → s.m.jpc.record.valid (!s.m.jpc.slot) = true →
       exec (.fwRollback d) s = .next (s.after (restartJpc s.env (s.ok d 0x0B03
         (writeRecord (s.took d) fun r => { r with active := !s.m.jpc.slot, trial := false }) 0) 1))))
  ∧ (∀ (s : State) (cause : BitVec 4) (a : Accepted), Live s → s.m.jpc.fw = .running ∨ s.m.jpc.fw = .recovery →
      s.m.jpc.accepted.find? (fun a => a.opcode == 0x0B01) = some a →
      ∀ m base, m = s.m.setJpc (fun j => { j with session := j.session.map fun x => { x with buffered := 0 } }) →
      base = slotBase (stagingSlot s.m) + 12 →
      (imageCause s.fuse cause = 0 → exec (.fwVerifyDone cause) s = .next (s.withM (endAccepted s.env
        ((writeRecord m fun r => { r.setValid (stagingSlot s.m) true with active := stagingSlot s.m, trial := true, trialBoots := 0 }).setJpc
          fun j => { j with
            session := none, versions := j.versions.set (bit (stagingSlot s.m))
              (flashAt s.m (base + 3) ++ flashAt s.m (base + 2) ++ flashAt s.m (base + 1) ++ flashAt s.m base) }) a 0 0)))
      ∧ (imageCause s.fuse cause ≠ 0 → exec (.fwVerifyDone cause) s = .next (s.withM (endAccepted s.env
        (m.setJpc fun j => { j with failCause := imageCause s.fuse cause }) a 0x11 (resAt 8 (imageCause s.fuse cause).toNat)))))

/-- The boot ROM (R587, R592). It takes the read mode from the SFDP tables, 1-4-4 before 1-1-4 before 1-1-1; where it cannot read them no
image verifies, with cause FLASH. A fourth boot on trial makes the other slot active, ends the trial and sets rolled_back; an earlier
one is counted. The active slot's image runs if it verifies; if not, that slot is no longer valid, and the other slot's image runs
when its slot is valid and it verifies; otherwise the controller enters RECOVERY.  Where the specification leaves a choice it follows
the model's, log entries 101, 102 and 134. -/
def Obligations.BootRomChoosesImage : Prop :=
  ∀ (e : Env) (m : M) (b : BootFacts) (cause : Bool → BitVec 4) (r : BootRecord),
    (∀ x, cause x = if b.sfdp = none then 1 else imageCause e.fuse (if x then b.cause1 else b.cause0)) → r = (bootImage e m b).1.jpc.record →
    (∀ t, b.sfdp = some t → ∃ x, (bootImage e m b).1.jpc.sfdp = some x ∧ x.fourByte = t.fourByte ∧ x.erase = t.erase
      ∧ (t.quad144 = true → x.mode = .r144 ∧ x.dummy = t.dummy144)
      ∧ (t.quad144 = false → t.quad114 = true → x.mode = .r114 ∧ x.dummy = t.dummy114)
      ∧ (t.quad144 = false → t.quad114 = false → x.mode = .r111 ∧ x.dummy = t.dummy111)) ∧
    (m.jpc.record.trial = true → 3 ≤ m.jpc.record.trialBoots → r.rolledBack = true ∧ r.trial = false
      ∧ (cause (!m.jpc.record.active) = 0 → (bootImage e m b).1.jpc.slot = !m.jpc.record.active))
    ∧ (m.jpc.record.trial = true → m.jpc.record.trialBoots < 3 → r.trialBoots = m.jpc.record.trialBoots + 1
      ∧ (cause m.jpc.record.active = 0 → (bootImage e m b).1.jpc.slot = m.jpc.record.active
        ∧ (bootImage e m b).1.jpc.trialRun = true))
    ∧ (m.jpc.record.trial = false → cause m.jpc.record.active = 0 →
      (bootImage e m b).1.jpc.fw = .running ∧ (bootImage e m b).1.jpc.slot = m.jpc.record.active ∧ r = m.jpc.record)
    ∧ (m.jpc.record.trial = false → cause m.jpc.record.active ≠ 0 → r.valid m.jpc.record.active = false
      ∧ (m.jpc.record.valid (!m.jpc.record.active) = true → cause (!m.jpc.record.active) = 0 →
        (bootImage e m b).1.jpc.fw = .running ∧ (bootImage e m b).1.jpc.slot = !m.jpc.record.active
          ∧ r.active = !m.jpc.record.active)
      ∧ (m.jpc.record.valid (!m.jpc.record.active) = false ∨ cause (!m.jpc.record.active) ≠ 0 →
        (bootImage e m b).1.jpc.fw = .recovery ∧ (bootImage e m b).2 = false))

/-- BOOT_ROM runs at a restart of the controller, and at phase 2 of bring-up; with an image the firmware comes back and resumes (R592,
R602, R893).  The watchdog, the firmware's faults and restarts (R600, R601, R605): each restarts the controller with its cause; a
write of JPC_WDOG starts the watchdog's interval again and changes nothing else.  Where the specification leaves a choice it follows
the model's, log entries 104 and 105. -/
def Obligations.ControllerStarts : Prop :=
  (∀ (s : State) (b : BootFacts), Live s →
     (s.m.jpc.fw = .restarting ∨ (s.m.jpc.fw = .rom ∧ s.m.boot.phase = 2 ∧ s.m.boot.stopped = false)) →
     ((bootImage s.env s.m b).2 = true → exec (.bootRom b) s = .next (s.after
       (resumeBringup s.env (fwReady s.env (bootImage s.env s.m b).1) s.m.jpc.pairAborted)))
     ∧ ((bootImage s.env s.m b).2 = false → exec (.bootRom b) s = .next (s.after (bootImage s.env s.m b).1)))
  ∧ (∀ (s : State), Live s →
      (s.m.jpc.fw = .running → exec .watchdogExpiry s = .next (s.after
        (restartJpc s.env (elapseTo s.env s.m (s.m.jpc.wdogTick + 12500000)) 3)))
      ∧ (s.m.jpc.fw = .running → exec .firmwareFault s = .next (s.after (restartJpc s.env s.m 4)))
      ∧ (∀ cause : BitVec 3, cause ≠ 0 → cause.toNat < 5 → (s.m.jpc.fw ≠ .halted ∨ cause = 2) →
        exec (.jpcRestart cause) s = .next (s.after (restartJpc s.env s.m cause.toNat)))
      ∧ (∀ v, exec (.jpcWdogWrite v) s = .next (s.withM (s.m.setJpc fun j => { j with wdogTick := s.m.now }))))

/-- What a restart leaves (R600, R605): the controller restarts, or halts when the watchdog or a fault has caused four restarts within 60
s; the cause stands and the restart is counted up to 255.  Where the specification leaves a choice it follows the model's, log entry
104. -/
def Obligations.RestartRecordsCause : Prop :=
  ∀ (e : Env) (m : M) (cause : Nat), 0 < cause → cause < 5 → m.jpc.clockHalt = false →
    (restartJpc e m cause).jpc.restartCause = BitVec.ofNat 3 cause
    ∧ (restartJpc e m cause).jpc.restarts = (if m.jpc.restarts = 0xFF then 0xFF else m.jpc.restarts + 1)
    ∧ (restartJpc e m cause).jpc.session = none
    ∧ (restartJpc e m cause).jpc.fw =
      (if (cause = 3 ∨ cause = 4) ∧ (match m.jpc.faultTicks with
          | _ :: _ :: t :: _ => decide (m.now < t + 3000000000)
          | _ => false) = true then .halted else .restarting)

/-- The ATOM group (R675, R676): APP_CFG sets the policy and the hint rule of the ports it names and returns GLB_APP_POLICY; APP_RESET
clears the predictor and the far histories.  The ECC group (R682 to R684): FRISKET_ARM arms the injector of a data-array channel, of a
slice's store or of the log; the PINMARK commands set up to six marks on a channel, or clear marks with their causes. -/
def Obligations.AtomAndEcc : Prop :=
  (∀ (s : State) (d : Desc), Taken s d false false false → s.fuse.variant.far = true →
     (descOnly d [(8, 3)] = true → descArg d 8 1 ≠ 0 → descArg d 8 1 < 4 → descArg d 9 1 < 3 → descArg d 10 1 < 2 →
       exec (.appCfg d) s = .next { s.withM (s.ok d 0x0C00 (s.took d)
           (resAt 8 (appCfg s.cfg.appPolicy (descArg d 8 1) (descArg d 9 1) (descArg d 10 1)).toNat)) with
         cfg := { s.cfg with appPolicy := appCfg s.cfg.appPolicy (descArg d 8 1) (descArg d 9 1) (descArg d 10 1) } })
     ∧ (descOnly d [] = true →
       exec (.appReset d) s = .next (s.withM (s.ok d 0x0C01
         ((s.took d).setCoh fun c => { c with predictor := [], history := [] }) 0))))
  ∧ (∀ (s : State) (d : Desc), Taken s d false false false →
      (descOnly d [(8, 3), (12, 4), (16, 5), (22, 2)] = true → descArg d 8 1 = 0 → descArg d 9 1 < s.fuse.variant.dacs →
        descArg d 9 1 < 8 → descArg d 10 1 < 2 → BitVec.ofNat 72 (descArg d 16 5) ≠ 0 → descArg d 22 2 ≠ 0 → descArg d 12 4 < 2 ^ 26 →
        channelBlocked s.m (descArg d 9 1) = false →
        exec (.frisketArm d) s = .next (s.withM (s.ok d 0x0E00 ((s.took d).setDac (descArg d 9 1) { s.m.dac (descArg d 9 1) with
          frisket := ⟨true, descArg d 10 1 == 1, BitVec.ofNat 26 (descArg d 12 4), BitVec.ofNat 72 (descArg d 16 5),
            BitVec.ofNat 16 (descArg d 22 2)⟩ }) 0)))
      ∧ (∀ f, f = ⟨true, descArg d 10 1 == 1, BitVec.ofNat 26 (descArg d 12 4), BitVec.ofNat 72 (descArg d 16 9), 0⟩ →
        descOnly d [(8, 3), (12, 4), (16, 9)] = true → descArg d 10 1 < 2 → BitVec.ofNat 72 (descArg d 16 9) ≠ 0 →
        descArg d 12 4 < 2 ^ 24 →
        (descArg d 8 1 = 4 → descArg d 9 1 = 0 → exec (.frisketArm d) s = .next (s.withM (s.ok d 0x0E00
          ((s.took d).setErr fun r => { r with frisket := f }) 0)))
        ∧ (0 < descArg d 8 1 → descArg d 8 1 < 4 → descArg d 9 1 < 16 → exec (.frisketArm d) s = .next (s.withM (s.ok d 0x0E00
          ((s.took d).setSlcFrisket (descArg d 8 1) (descArg d 9 1) f) 0))))
      ∧ (∀ (n : Nat) (mask : BitVec 40), descArg d 8 1 = n → descArg d 12 5 = mask.toNat → n < s.fuse.variant.dacs → n < 8 → mask ≠ 0 →
        descOnly d [(8, 1), (12, 5)] = true → channelBlocked s.m n = false →
        (∀ m, m = (List.range 40).foldl (fun m k => if mask.getLsbD k then markPin s.env m n k 3 else m) (s.took d) →
          popCount ((s.m.dac n).marks ||| mask) ≤ 6 →
          exec (.pinmarkSet d) s = .next (s.withM (s.ok d 0x0E01 m (resAt 8 (m.dac n).marks.toNat))))
        ∧ (∀ m, m = (s.took d).setDac n { s.m.dac n with
            marks := (s.m.dac n).marks &&& ~~~mask
            markCause := (List.range 40).foldl (fun t k => if mask.getLsbD k then Tab.put (fun _ => 0) t k 0 else t) (s.m.dac n).markCause } →
          exec (.pinmarkClear d) s = .next (s.withM (s.ok d 0x0E02 m (resAt 8 (m.dac n).marks.toNat))))))

/-- The PORT group (R677 to R681): PORT_RECOVER in the recovery window opens the interval; PORT_FENCE and PORT_UNFENCE fence and unfence a
link or an agent, whose bit of the fence registers is cleared while its port is not fenced (R441); AGENT_MAP replaces the map, or only
reports it.  Where the specification leaves a choice it follows the model's, log entries 69 and 79. -/
def Obligations.PortCommands : Prop :=
  ∀ (s : State) (d : Desc),
    (∀ p w, portArg d = some p → (s.m.port p).window = some w → s.m.now ≤ w + 50000 → (s.m.port p).interval = none →
      linkFenced s.env s.m p.lnk = false → Taken s d false false false → descOnly d [(8, 1), (10, 2)] = true →
      descArg d 10 2 ≠ 0 → descArg d 10 2 ≤ 100 → s.m.jpc.accepted.length < 16 →
      ∀ m, m = s.accepted d 0x0D00 0 0 0 0 →
      exec (.portRecover d) s = .next (s.after (recoverCheck s.env (m.setPort p { m.port p with
        window := none, interval := some (m.now, descArg d 10 2 * 50000, (heldLines m p).length, s.jobId) }) p)))
    ∧ (∀ l, Lnk.ofField (descArg d 9 1) = some l → (l = .ckl → s.fuse.variant.ckl = true) → Taken s d false false false →
      descOnly d [(8, 2)] = true → descArg d 8 1 = 0 →
      exec (.portFenceLink d) s = .next (s.after (s.ok d 0x0D01 (fenceAny s.env (s.took d) l) 0))
      ∧ exec (.portUnfenceLink d) s = .next (s.after (s.ok d 0x0D02 (unfenceLink s.env (s.took d) l) 0)))
    ∧ (∀ a : Agent, descArg d 10 1 = a.toNat → Taken s d false false false → descOnly d [(8, 1), (10, 1)] = true →
      descArg d 8 1 = 1 →
      exec (.portFenceAgent d) s = .next (s.after (s.ok d 0x0D01 (fenceAgent s.env (s.took d) a true) 0))
      ∧ (linkFenced s.env s.m (agentPort a).lnk = false →
        exec (.portUnfenceAgent d) s = .next (s.after (s.ok d 0x0D02
          (wr s.env (s.took d) (fenceReg a) (rd s.env s.m (fenceReg a) &&& ~~~((1 : Word) <<< (a.toNat % 32)))) 0))))
    ∧ (∀ p, portArg d = some p → Taken s d false false false → descOnly d [(8, 2), (12, 4)] = true →
      (descArg d 9 1 = 1 → exec (.agentMap d) s = .next (s.withM
        (s.ok d 0x0D03 (s.took d) (resAt 8 (s.m.port p).agentMap.toNat))))
      ∧ (descArg d 9 1 = 0 → exec (.agentMap d) s = .next (s.withM (s.ok d 0x0D03
        ((s.took d).setPort p { s.m.port p with agentMap := BitVec.ofNat 32 (descArg d 12 4) })
        (resAt 8 (s.m.port p).agentMap.toNat)))))

/-- A request of an agent against which R426 finds nothing, and which its port holds back with neither QUIESCE nor a hold queue, closes an
open stick of its line at its port and goes to its slice; a write enters its agent's open epoch (R273, R293, R408, R426).  Where the
specification leaves a choice it follows the model's, log entries 47 and 51. -/
def Obligations.RequestsGoToTheirSlice : Prop :=
  ∀ (s : State) (h : ReqHdr) (op : Op) (c : Instr) (mask : Mask) (data : Data) (slots : Nat) (a b : BitVec 128) (m : M) (r : Req),
    (op, c, mask, data, slots) ∈ [(Op.rdShared, .rdShared h, fullMask, 0, 0), (.rdOwn, .rdOwn h, fullMask, 0, 0),
      (.rdOnce, .rdOnce h, fullMask, 0, 0), (.rdNt, .rdNt h, fullMask, 0, 0), (.rsvLd, .rsvLd h, fullMask, 0, 0),
      (.evictClean, .evictClean h, fullMask, 0, 0), (.flushLine, .flushLine h, fullMask, 0, 0),
      (.invalLine, .invalLine h, fullMask, 0, 0), (.wrLine, .wrLine h data, fullMask, data, 8),
      (.evictDirty, .evictDirty h data, fullMask, data, 8), (.wrPart, .wrPart h mask data, mask, data, 1 + popCount h.slotMap),
      (.cndSt, .cndSt h mask data, mask, data, 1 + popCount h.slotMap),
      (.atom, .atom h a b, atomMask h.opf, (b ++ a : BitVec 256).setWidth 1024, if atomOp h.opf = 2 then 2 else 1)] →
    Live s → Admitted s h op mask → Passes s h op → primaryFor s.m h.line = true →
    (m, r) = enterEpoch (s.recorded h op mask data slots) (s.req h op mask data) →
    exec c s = .next (s.after (arrive s.env (flushAhead s.env m h.port h.line) r))

/-- A WR_NT merges into its line's open stick at its port, waits for the stick's reply, or opens a stick (R293 to R298); a BARRIER_C
closes its agent's epoch while fewer than 7 closed ones are open (R274, R276).  QUIESCE holds back every request but evictions, in the
order of arrival (R404 to R406, R697).  Where the specification leaves a choice it follows the model's, log entries 50 and 51. -/
def Obligations.SticksBarriersQuiesce : Prop :=
  (∀ (s : State) (h : ReqHdr) (mask : Mask) (data : Data), Live s →
     (∀ m r, Admitted s h .wrNt mask → Passes s h .wrNt → primaryFor s.m h.line = true →
       (m, r) = enterEpoch (s.recorded h .wrNt mask data (1 + popCount h.slotMap)) (s.req h .wrNt mask data) →
       ((s.m.stickAt h.port h.line) = none → exec (.wrNt h mask data) s = .next (s.after (openStick s.env m r)))
       ∧ (∀ k, s.m.stickAt h.port h.line = some k → k.replied = true →
         exec (.wrNt h mask data) s = .next (s.after (mergeStick s.env m r k)))
       ∧ (∀ k, s.m.stickAt h.port h.line = some k → k.replied = false →
         exec (.wrNt h mask data) s = .next (s.after (m.setPort h.port { m.port h.port with ntWait := (m.port h.port).ntWait ++ [r] }))))
     ∧ (Admitted s h .barrier fullMask → Passes s h .barrier → closedEpochs ((s.m.port h.port).epochsOf h.agent) < 7 →
       exec (.barrierC h) s = .next (s.after (barrier s.env
         (count s.env (s.recorded h .barrier fullMask 0 0) h.port.lnk.island 0xB 1 (some h.agent)) (s.req h .barrier fullMask 0)))))
  ∧ (∀ (s : State) (h : ReqHdr) (op : Op) (c : Instr),
      (op, c) ∈ [(Op.rdShared, .rdShared h), (.rdOwn, .rdOwn h), (.rdOnce, .rdOnce h), (.rdNt, .rdNt h), (.rsvLd, .rsvLd h),
        (.flushLine, .flushLine h), (.invalLine, .invalLine h)] →
      Live s → Admitted s h op fullMask → s.m.holding = true → primaryFor s.m h.line = true →
      ∀ m, m = s.recorded h op fullMask 0 0 →
      exec c s = .next (s.after (m.setPort h.port { m.port h.port with hold := (m.port h.port).hold ++ [s.req h op fullMask 0] })))

/-- A request whose tag its port has outstanding is a violation with code TAG_REUSE, one whose agent is none of the port's with code
AGENT_PORT; the port records neither (R426, R427). -/
def Obligations.MalformedRequests : Prop :=
  ∀ (s : State) (h : ReqHdr), Live s → Buffered s h.port.lnk 0 0 →
    (agentPort h.agent ≠ h.port → exec (.rdShared h) s = .next (s.after
      (violate s.env (s.received h.port.lnk 0 0) h.port.lnk 0x13 (some h.agent) h.tag Op.rdShared.code true true)))
    ∧ (agentPort h.agent = h.port → (s.m.port h.port).outstanding.any (fun x => x.1 == h.tag) = true →
      exec (.rdShared h) s = .next (s.after
        (violate s.env (s.received h.port.lnk 0 0) h.port.lnk 0x12 (some h.agent) h.tag Op.rdShared.code true true)))

/-- CFG_RD and CFG_WR reach the register space through their port (R387 to R391): what the access leaves is what the read or the write of
the address leaves, with DATA or CMP as the answer, with ERR 0x11 where it is not allowed, and with ERR 0x12 for a write that is
abandoned. Neither fences nor a recovery interval stop them; an agent's hold queue does (R276). -/
def Obligations.ConfigurationRequests : Prop :=
  ∀ (s : State) (h : ReqHdr) (m t : M) (x : AccEnd), Live s → (s.m.port h.port).agentMap.getLsbD (h.agent.toNat % 32) = true →
    h.cfgAddr.extractLsb' 0 2 = 0 → ((s.m.port h.port).epochsOf h.agent).hold = [] →
    NoneReady s →
    (Formed s h .cfgRd 0 → hdrReserved h .cfgRd = false → m = s.recorded h .cfgRd 0 0 0 →
      (t, x) = access s.env m (reqAcc (s.req h .cfgRd 0 0)) h.cfgAddr false 0 →
      (x = .denied → exec (.cfgRd h) s = .next (s.applied (fin s.env (portErr s.env t (s.req h .cfgRd 0 0) 0x11))))
      ∧ (x ≠ .denied → exec (.cfgRd h) s = .next (s.applied (fin s.env (respondCfg s.env t h.port h.tag
        (.data h.tag false 1 (BitVec.ofNat 1024 (t.acc.readData.toNat + bit (x == .abandoned) * 2 ^ 32))) false)))))
    ∧ (Formed s h .cfgWr 0 → hdrReserved h .cfgWr = false → m = s.recorded h .cfgWr 0 0 0 →
      (t, x) = access s.env m (reqAcc (s.req h .cfgWr 0 0)) h.cfgAddr true h.cfgData →
      (x = .denied → exec (.cfgWr h) s = .next (s.applied (fin s.env (portErr s.env t (s.req h .cfgWr 0 0) 0x11))))
      ∧ (x = .abandoned → exec (.cfgWr h) s = .next (s.applied (fin s.env (portErr s.env t (s.req h .cfgWr 0 0) 0x12))))
      ∧ (x = .done → exec (.cfgWr h) s = .next (s.applied (fin s.env (respondCfg s.env t h.port h.tag (.cmp h.tag false) false)))))

/-- Answers to snoops (R194): an answer that names an open snoop of its agent, on an ACTIVE link with neither it nor its agent fenced, is
judged at the slice; one that names none is discarded as a violation with code STRAY_RSP; SNP_RSP_EVP to a snoop without an eviction
yet is recorded, and the snoop waits for that eviction.  GRANT_ACK closes the transaction of its grant and frees the tag (R197); for a
grant already rolled back it is a late answer (R213). A relayed beacon is handed to the pair logic (R401).  Where the specification
leaves a choice it follows the model's, log entries 49, 54 and 131. -/
def Obligations.SnoopAnswersAndAcks : Prop :=
  (∀ (s : State) (r : SnpRsp) (data : Data) (m : M), Live s →
     linkFenced s.env s.m r.port.lnk = false → agentFenced s.env s.m r.agent = false →
     (∀ t y, findSnp s.m r.port r.tag = some (t, y) → sliceDead s.m (sliceOf t.req.line) = false → y.held = false → y.evp = none →
       (y.bcast = true ∨ y.agent = r.agent) →
       (Buffered s r.port.lnk 1 0 → m = s.received r.port.lnk 1 0 →
         exec (.snpRspI r) s = .next (s.after (answered s.env m t y r .i 0))
         ∧ exec (.snpRspS r) s = .next (s.after (answered s.env m t y r .s 0))
         ∧ (y.evicted.contains r.agent = false → exec (.snpRspEvp r) s = .next (s.after (m.updTxn t.req.line fun t => { t with
           snoops := t.snoops.map fun z => if z.port == y.port && z.tag == y.tag then
             { z with evp := some r.agent, several := r.several } else z }))))
       ∧ (Buffered s r.port.lnk 1 8 → m = s.received r.port.lnk 1 8 →
         exec (.snpRspID r data) s = .next (s.after (answered s.env m t y r .id data))
         ∧ exec (.snpRspSD r data) s = .next (s.after (answered s.env m t y r .sd data))))
     ∧ (findSnp s.m r.port r.tag = none → Buffered s r.port.lnk 1 0 →
       exec (.snpRspI r) s = .next (s.after (violate s.env (s.received r.port.lnk 1 0) r.port.lnk 0x14 (some r.agent) r.tag
         Ans.i.code true true))))
  ∧ (∀ (s : State) (p : HPort) (tag : Tag) (b : Beacon), Live s →
      (∀ t m, Buffered s p.lnk 2 0 → m = s.received p.lnk 2 0 → (s.m.port p).voided.contains tag = false → (s.m.port p).ackAfterEvict.contains tag = false →
        s.m.coh.txns.find? (fun t => t.phase == .granted && t.req.port == p && t.req.tag == tag && !t.dropped) = some t →
        sliceDead s.m (sliceOf t.req.line) = false → linkFenced s.env s.m p.lnk = false → agentFenced s.env s.m t.req.agent = false →
        exec (.grantAck p tag) s = .next (s.after (closeTxn s.env (freeHostTag m p tag) t.req.line)))
      ∧ (Buffered s p.lnk 2 0 → (s.m.port p).voided.contains tag = true → ∀ m, m = s.received p.lnk 2 0 →
        exec (.grantAck p tag) s = .next (s.after (violate s.env (freeHostTag m p tag) p.lnk 0x17
          (((s.m.port p).outstanding.find? fun x => x.1 == tag).map fun x => x.2.1) tag 0x38 false true)))
      ∧ (Buffered s p.lnk 2 1 → exec (.peerBeaconRx p b) s = .next (s.after (beaconIn s.env (s.received p.lnk 2 1) p b))))

/-- The answers of a memory controller to an outstanding request (R280, R281, R396, R397): data completes a read and CMP a write; ERR is
logged and answers a read poisoned, for a write it resets the port's island; a kind of answer that the request does not take is a
violation with code WRONG_RSP; one that names no request is one with code STRAY_RSP. -/
def Obligations.MemoryAnswers : Prop :=
  ∀ (s : State) (p : MPort) (tag : Tag) (poison : Bool) (data : Data) (code : BitVec 8), Live s →
    (∀ r, memFind s.m p tag = some r → sliceDead s.m (sliceOf r.line) = false →
      (∀ m, Buffered s p.lnk 2 8 → m = s.received p.lnk 2 8 → r.write = false →
        exec (.memDataRx p tag 8 poison data) s = .next (s.after (memReadDone s.env (memTake s.env m p r) r data poison true)))
      ∧ (∀ m, Buffered s p.lnk 2 0 → m = s.received p.lnk 2 0 →
        (r.write = true → exec (.memCmpRx p tag) s = .next (s.after (memAck s.env (memTake s.env m p r) r)))
        ∧ (r.write = false → exec (.memCmpRx p tag) s = .next (s.after
          (violate s.env (memErr s.env m p r 0x100) p.lnk 0x16 none tag 0x35 true true)))
        ∧ exec (.memErrRx p tag code) s = .next (s.after (memErr s.env m p r code.toNat))))
    ∧ (memFind s.m p tag = none → Buffered s p.lnk 2 0 → exec (.memCmpRx p tag) s = .next (s.after
      (violate s.env (s.received p.lnk 2 0) p.lnk 0x14 none tag 0x35 true true)))

/-- Valid flits on an ACTIVE link (Table 7.7, R330 to R337, R345, R352): the flit's ack is taken; a PAYLOAD flit with the expected number
is accepted, one that repeats an accepted number is dropped, another asks for a NAK; IDLE, NAK and RETRAIN_REQ bring running totals,
and a NAK that repeats the last ack starts a replay, a RETRAIN_REQ a retrain attempt.  Flits that are not valid, and INIT flits (R326,
R331, R342, R346, R353, R357): an invalid flit is counted in the window and asks for a NAK, and brings the link down at the threshold;
the partner's INIT flit makes the link ACTIVE when its role and its advertisement fit; in RETRAIN an INIT flit with resync ends the
attempt.  Where the specification leaves a choice it follows the model's, log entries 48, 60, 61, 71 and 74. -/
def Obligations.FlitsOfEveryKind : Prop :=
  (∀ (s : State) (l : Lnk) (f : BitVec 576) (m t : M), Live s → (s.m.link l).st = .active → flitValid f false = true →
     m = takeAck s.env (s.m.setLink l { s.m.link l with
       lastValid := s.m.now, winBad := windowAfter (s.m.link l) false, rxFlits := (s.m.link l).rxFlits + 1 }) l (flitAck f) →
     (flitType f = 1 → (m.link l).payloadRun ≠ 256 → t = m.setLink l { m.link l with payloadRun := (m.link l).payloadRun + 1 } →
       (flitSeq f = (t.link l).rxExpected → exec (.payloadFlitRx l f false) s = .next (s.after (acceptFlit s.env t l f)))
       ∧ (∀ n, n = ((t.link l).rxExpected - flitSeq f).toNat → 0 < n → n ≤ 1024 →
         exec (.payloadFlitRx l f false) s = .next (s.after t))
       ∧ (∀ n, n = ((t.link l).rxExpected - flitSeq f).toNat → 1024 < n →
         exec (.payloadFlitRx l f false) s = .next (s.after (askNak t l))))
     ∧ (∀ u, t = takeTotals s.env (m.setLink l { m.link l with payloadRun := 0 }) l (flitTotals f) →
       u = (if flitSeq f = (t.link l).rxExpected then t else askNak t l) →
       (flitType f = 0 → exec (.idleFlitRx l f false) s = .next (s.after u))
       ∧ (flitType f = 2 → (u.link l).lastAck = flitAck f → exec (.nakRx l f false) s = .next (s.after (nakReplay s.env u l)))
       ∧ (flitType f = 2 → (u.link l).lastAck ≠ flitAck f → exec (.nakRx l f false) s = .next (s.after u))
       ∧ (flitType f = 3 → exec (.retrainReqRx l f false) s = .next (s.after (enterRetrain s.env u l)))))
  ∧ (∀ (s : State) (l : Lnk) (f : BitVec 576), Live s →
      (∀ unc, (s.m.link l).st = .active → flitValid f unc = false →
        exec (.payloadFlitRx l f unc) s = .next (s.after (badFlit s.env s.m l unc)))
      ∧ ((s.m.link l).st = .initCredit → flitValid f false = true → flitType f = 4 → flitResync f = false →
        (flitRole f = partnerRole l → listLe (leastAdv l) (flitTotals f) = true →
          exec (.initFlitRx l f false) s = .next (s.after (linkUp s.env s.m l (flitTotals f))))
        ∧ (flitRole f ≠ partnerRole l → exec (.initFlitRx l f false) s = .next (s.after
          (linkDown s.env (violate s.env s.m l 0x06 none 0 0 false true) l 0xB)))
        ∧ (flitRole f = partnerRole l → listLe (leastAdv l) (flitTotals f) = false →
          exec (.initFlitRx l f false) s = .next (s.after (linkDown s.env (violate s.env s.m l 0x06 none 0 0 false true) l 0xA))))
      ∧ ((s.m.link l).st = .retrain → flitValid f false = true → flitType f = 4 →
        exec (.retrainResync l f false) s = .next (s.after (resyncFlit s.env s.m l f))))

/-- The timers of an ACTIVE link (R331, R338, R339, R341, R357): 1 µs after a NAK it is sent again while it is pending; 2 µs without an
ack start a replay, but one that a NAK of the same tick has started (R338), and the fourth in a row without progress retrains; 100 µs
without a valid flit bring a link with nothing to replay down, and the threshold of invalid flits any, with their reasons.  Retraining
(R322, R352 to R356): loss of signal or of alignment on an active group starts an attempt; a lane that has not locked in 200 µs is
failed and its group dropped; an attempt of 1 ms fails; 1 ms ACTIVE after a good attempt clears the count of failed ones.  Where the
specification leaves a choice it follows the model's, log entries 72 and 73. -/
def Obligations.LinkTimersAndRetraining : Prop :=
  (∀ (s : State) (l : Lnk), Live s → (s.m.link l).st = .active →
     ((s.m.link l).nakPending = true →
       exec (.nakResendTimer l) s = .next (s.after (sendNak (elapseTo s.env s.m ((s.m.link l).nakTick + 50)) l)))
     ∧ ((s.m.link l).replay ≠ [] →
       ∀ m, m = elapseTo s.env s.m ((s.m.link l).ackTick + 100) →
       ((m.link l).nakReplay ≠ some m.now → exec (.ackTimerExpiry l) s = .next (s.after (startReplay s.env
         (m.setLink l { m.link l with ackTick := m.now, timerReplay := some m.now }) l)))
       ∧ ((m.link l).nakReplay = some m.now → exec (.ackTimerExpiry l) s = .next (s.after
         (m.setLink l { m.link l with ackTick := m.now }))))
     ∧ ((s.m.link l).replay ≠ [] → exec (.replayNoProgress l) s = .next (s.after
       (timerReplays s.env l ((s.m.link l).ackTick + 400) s.m)))
     ∧ ((s.m.link l).replay = [] →
       exec (.noFlitTimeout l) s = .next (s.after (linkDown s.env (elapseTo s.env s.m ((s.m.link l).lastValid + 5000)) l 3)))
     ∧ (∀ m, m = timerReplays s.env l ((s.m.link l).lastValid + 5000) s.m → (m.link l).st ≠ .active →
       exec (.noFlitTimeout l) s = .next (s.after m))
     ∧ (∀ n m, n = threshold s.env s.m l - (s.m.link l).winBad.length →
       m = (if l = .ckl then bump s.env s.m (rLinkCnt l 2) n else count s.env (bump s.env s.m (rLinkCnt l 2) n) l.island 5 n none) →
       exec (.crcWindow l) s = .next (s.after (linkDown s.env (m.setLink l { m.link l with
         winBad := (List.range n).map (· + (s.m.link l).rxFlits) ++ (s.m.link l).winBad
         rxFlits := (s.m.link l).rxFlits + n }) l 1))))
  ∧ (∀ (s : State) (l : Lnk) (lane : Fin 24), Live s →
      ((s.m.link l).groups.getLsbD (lane.val / 8) = true →
        exec (.lossOfSignal l lane) s = .next (s.after (enterRetrain s.env s.m l)))
      ∧ (∀ g : Fin 3, (s.m.link l).st = .active → (s.m.link l).groups.getLsbD g.val = true →
        exec (.groupAlignmentLost l g) s = .next (s.after (enterRetrain s.env
          (countUnc s.env { s.m with free := s.m.free + 1 } l g.val (3 + (Config.lane s.m.free).toNat % 4)) l)))
      ∧ ((s.m.link l).st = .retrain → (s.m.link l).groups.getLsbD (lane.val / 8) = true →
        ∀ m f, m = elapseTo s.env s.m ((s.m.link l).since + 10000) → f = (m.link l).rxFailed ||| ((1 : BitVec 24) <<< lane.val) →
        (goodGroups f (m.link l).groups ≠ 0 → exec (.laneLockTimeout l lane) s = .next (s.after
          (m.setLink l { m.link l with rxFailed := f, groups := goodGroups f (m.link l).groups, aligned := false })))
        ∧ (goodGroups f (m.link l).groups = 0 → exec (.laneLockTimeout l lane) s = .next (s.after (failAttempt s.env
          (m.setLink l { m.link l with rxFailed := f, groups := goodGroups f (m.link l).groups, aligned := false }) l))))
      ∧ ((s.m.link l).st = .retrain → exec (.retrainAttemptTimeout l) s = .next (s.after
        (failAttempt s.env (elapseTo s.env s.m ((s.m.link l).since + 50000)) l)))
      ∧ ((s.m.link l).st = .active → (s.m.link l).retrained = true → ∀ m, m = elapseTo s.env s.m ((s.m.link l).since + 50000) →
        exec (.retrainCountReset l) s = .next (s.after (m.setLink l { m.link l with retrainFails := 0, retrained := false }))))

/-- Training from DOWN to INIT_CREDIT (Table 7.13, R348 to R350): each state leads to the next with its time and its findings, and to DOWN
with its reason where no group is left or its limit passes. Each partner's request for a tap is taken within the fused limit (R312);
the groups are chosen within both ends' maximum widths (R350), and ALIGN learns the lanes (R309), in a retrain attempt as at start. -/
def Obligations.Training : Prop :=
  ∀ (s : State) (l : Lnk) (x : LinkSt), Live s → x = s.m.link l →
    (x.st = .down → mayLeaveDown s.env s.m l = true → ∀ m, m = elapseTo s.env s.m (x.since + 500) →
      exec (.downToDetect l) s = .next (s.after (m.setLink l { m.link l with
        st := .detect, since := m.now, rxFailed := 0, txFailed := 0, ran := true })))
    ∧ (∀ g, x.st = .detect → g &&& l.allGroups ≠ 0 → exec (.partnerDetected l g) s = .next (s.after (s.m.setLink l { x with
      st := .trainEq, since := s.m.now, trained := g &&& l.allGroups, taps := presets s.env s.m l, atLimit := [] })))
    ∧ (∀ a b taps y m, x.st = .trainEq → y = taps.foldl (tapRequest s.env) x →
      m = s.m.setLink l { y with rxFailed := a, txFailed := b, trained := goodGroups (a ||| b) y.trained } →
      (goodGroups (a ||| b) y.trained ≠ 0 → exec (.trainEqDone l a ⟨b, taps⟩) s = .next (s.after
        (m.setLink l { m.link l with st := .align, since := m.now })))
      ∧ (goodGroups (a ||| b) y.trained = 0 → exec (.trainEqDone l a ⟨b, taps⟩) s = .next (s.after (linkDown s.env m l 7))))
    ∧ (x.st = .trainEq → exec (.trainEqTimeout l) s = .next (s.after (linkDown s.env (elapseTo s.env s.m (x.since + 2500000)) l 7)))
    ∧ (∀ p w lanes c m g, c = goodGroups (x.rxFailed ||| x.txFailed) x.trained &&& p →
      m = s.m.setLink l { x with partnerMax := w.val + 1, common := c, laneMap := learnLanes x.laneMap lanes } →
      g = chooseGroups s.env m l c →
      (x.st = .align → g ≠ 0 → exec (.alignDone l ⟨p, w, lanes⟩) s = .next (s.after (control (m.setLink l { m.link l with
        st := .initCredit, since := m.now, groups := g }) l (.init false))))
      ∧ (x.st = .align → g = 0 → exec (.alignDone l ⟨p, w, lanes⟩) s = .next (s.after (linkDown s.env m l 6)))
      ∧ (x.st = .retrain → g ≠ 0 → exec (.alignDone l ⟨p, w, lanes⟩) s = .next (s.after (control (m.setLink l { m.link l with
        groups := g, aligned := true }) l (.init true)))))
    ∧ (x.st = .align → exec (.alignTimeout l) s = .next (s.after (linkDown s.env (elapseTo s.env s.m (x.since + 100000)) l 8)))
    ∧ (x.st = .initCredit → exec (.initTimeout l) s = .next (s.after (linkDown s.env (elapseTo s.env s.m (x.since + 50000)) l 9)))

/-- Port events, port resets, memory ports down and memory timeouts (R214, R402, R413, R414, R902).  Where the specification leaves a
choice it follows the model's, log entries 55, 59 and 78. -/
def Obligations.PortEvents : Prop :=
  ∀ (s : State), Live s →
    (∀ p : HPort, (s.m.link p.lnk).st = .active ∨ (s.m.link p.lnk).st = .retrain →
      exec (.portEvent p) s = .next (s.after (linkDown s.env s.m p.lnk 0xC)))
    ∧ (∀ p : HPort, (s.m.link p.lnk).st ≠ .active → (s.m.link p.lnk).st ≠ .retrain →
      exec (.portEvent p) s = .next (s.after (hostEvent s.env s.m p)))
    ∧ (∀ l, exec (.portReset l) s = .next (s.after (portReset s.env s.m l)))
    ∧ (∀ p : MPort, (s.m.link p.lnk).st = .active ∨ (s.m.link p.lnk).st = .retrain →
      exec (.memportDown p) s = .next (s.after (linkDown s.env s.m p.lnk 0xC)))
    ∧ (∀ p tag r t, memFind s.m p tag = some r → r.sent = some t → exec (.memTimeout p tag) s = .next (s.after (portReset s.env
      (log s.env (elapseTo s.env s.m (t + 500000)) 0x0302 p.lnk.n (tag.setWidth 32) 0 (r.line.setWidth 64)) p.lnk)))

/-- Snoops without an answer (R185, R198, R209, R210): 20 µs after it left, a snoop that no violation holds counts as lost for its
transaction; 4 µs after a grant left without GRANT_ACK, its tag is void, the rollback is logged and counted, and the line is poisoned
at once for a fenced agent that owned it, or recalled by a snoop.  Where the specification leaves a choice it follows the model's, log
entries 56 and 131. -/
def Obligations.SnoopsAndGrantsTimeOut : Prop :=
  ∀ (s : State) (p : HPort) (tag : Tag), Live s →
    (∀ t y left, findSnp s.m p tag = some (t, y) → y.sent = some left → y.held = false → sliceDead s.m (sliceOf t.req.line) = false →
      (y.bcast = false → y.evp = none → exec (.snoopTimeout p tag) s = .next (s.after
        (snoopLost s.env (elapseTo s.env s.m (left + 1000)) t y)))
      ∧ (y.bcast = true → y.evp = none → exec (.bcastSnoopTimeout p tag) s = .next (s.after
        (snoopLost s.env (elapseTo s.env s.m (left + 1000)) t y)))
      ∧ (y.evp.isSome = true → exec (.evpWaitTimeout p tag) s = .next (s.after
        (snoopLost s.env (elapseTo s.env s.m (left + 1000)) t y))))
    ∧ (∀ t m n left, t.sent = some left → s.m.coh.txns.find? (fun t => t.phase == .granted && t.req.port == p && t.req.tag == tag) = some t →
      sliceDead s.m (sliceOf t.req.line) = false → m = elapseTo s.env s.m (left + 200) →
      (m.port t.req.port).outstanding.any (fun x => x.1 == t.req.tag) = true →
      n = count s.env (log s.env (m.setPort t.req.port { m.port t.req.port with voided := t.req.tag :: (m.port t.req.port).voided })
        0x0204 (sliceOf t.req.line) (t.req.agent.setWidth 32) 0 (t.req.line.setWidth 64)) (sliceOf t.req.line) 0xA 1 none →
      (agentFenced s.env n t.req.agent = true → exec (.grantRollback p tag) s = .next (s.after (endRollback s.env
        (if t.grant = .s then n else poisonLine s.env n t.req.line) t.req.line)))
      ∧ (∀ o y, agentFenced s.env n t.req.agent = false →
        sendSnoop s.env n t.req.line .inv t.req.port t.req.agent false (t.grant != .s) = (o, y) →
        exec (.grantRollback p tag) s = .next (s.after
          (o.updTxn t.req.line fun t => { t with phase := .rollback, snoops := [y], sent := none }))))

/-- Trackers and recovery (R206, R215, R217): a freed back-invalidation tracker goes to the requests that wait for one, the oldest first,
as far as trackers are free; a recovery window that closes unused after 1 ms poisons what the port's agents hold; an interval ends at
its length.  Reservations (R253, R259, R260): a slot that has been armed for 16 µs is cleared; the head of the starvation queue leaves
it when it has sent no RSV_LD for its line in 4 µs, be it held by its port; 2 µs after its response a guarded slot loses its guard and
stays armed.  Where the specification leaves a choice it follows the model's, log entries 55 and 131. -/
def Obligations.TrackersRecoveryReservations : Prop :=
  (∀ (s : State), Live s →
     (∀ (x : Fin 16) ts, ts = s.m.coh.txns.filter (fun t => t.phase == .tracker && sliceOf t.req.line == x.val) →
       sliceDead s.m x.val = false →
       exec (.backInvalFree x) s = .next (s.after (ts.foldl (fun m t =>
         if 16 ≤ trackers m x.val || !m.coh.txns.contains t then m else dirRetry s.env m t) s.m)))
     ∧ (∀ p w m, (s.m.port p).window = some w → (s.m.port p).interval = none →
       m = (poisonAll s.env (elapseTo s.env s.m (w + 50000)) p).1 →
       exec (.recoveryWindowExpiry p) s = .next (s.after (m.setPort p { m.port p with window := none, rolledBack := [] })))
     ∧ (∀ p a b c d, (s.m.port p).interval = some (a, b, c, d) → exec (.recoveryIntervalEnd p) s = .next (s.after
       (endInterval s.env (elapseTo s.env s.m (a + b)) p))))
  ∧ (∀ (s : State) (x : Fin 16), Live s →
      (∀ k : Fin 8, (s.m.slot x.val k.val).armed = true → exec (.rsvSlotExpiry x k) s = .next (s.after
        (clearSlot (elapseTo s.env s.m ((s.m.slot x.val k.val).tick + 800)) x.val k.val)))
      ∧ (∀ a l t rest, s.m.starve x.val = (a, l, t) :: rest → guardOn s.m l ≠ some a →
        s.m.coh.waiting.any (fun r => r.op == .rsvLd && r.agent == a && r.line == l) = false →
        s.m.coh.txns.any (fun y => y.req.op == .rsvLd && y.req.agent == a && y.req.line == l) = false →
        (s.m.port (agentPort a)).hold.any (fun r => r.op == .rsvLd && r.agent == a && r.line == l) = false →
        ((s.m.port (agentPort a)).epochsOf a).hold.any (fun r => r.op == .rsvLd && r.agent == a && r.line == l) = false →
        exec (.starveHeadTimeout x) s = .next (s.after (leaveStarve (elapseTo s.env s.m (t + 200)) x.val a)))
      ∧ (∀ k left, (List.range 8).find? (fun k => (s.m.slot x.val k).armed && (s.m.slot x.val k).guarded) = some k →
        (s.m.slot x.val k).sent = some left →
        exec (.rsvGuardExpiry x) s = .next (s.after (leaveStarve
          ((elapseTo s.env s.m (left + 100)).setSlot x.val k { s.m.slot x.val k with guarded := false })
          x.val (s.m.slot x.val k).agent))))

/-- Attribute spans (R156 to R160): the master table's answer records its span and lets every request in it that waits for attributes go
on with them; a span is dropped 65,536 cycles of its slice after it was filled, those before a change of the divider counted as they
passed.  The data array's answers and the buffers of a slice that lives (R49, R54, R288, R465): a read or a write of the data array
ends; an entry that is free goes to the requests that wait for one.  Where the specification leaves a choice it follows the model's,
log entries 80 and 81. -/
def Obligations.SpansArrayEntries : Prop :=
  (∀ (s : State) (x : Fin 16) (folio : Folio), Live s →
     (∀ (waits : Txn → Bool) m ts lo hi, (∀ t, waits t = (t.phase == .attr && sliceOf t.req.line == x.val)) →
       s.m.coh.txns.any (fun t => waits t && folioOf t.req.line == folio) = true → sliceDead s.m x.val = false →
       m = fillSpan s.env s.m x.val folio.toNat → (lo, hi) = ratSpan s.cfg.rat folio.toNat →
       ts = m.coh.txns.filter (fun t =>
         waits t && decide (lo ≤ (folioOf t.req.line).toNat) && decide ((folioOf t.req.line).toNat ≤ hi)) →
       exec (.attrSpanFill x folio) s = .next (s.after (ts.foldl (fun m t => withAttrs s.env
         (noteLooked (m.setCoh fun c => { c with txns := c.txns.erase t }) t.req) t.req (ratAttrs s.cfg.rat folio.toNat) t.cndOk) m)))
     ∧ (∀ y rate m, rate = sliceRate s.m x.val → (s.m.spans x.val).find? (fun y => decide (y.lo ≤ folio.toNat) && decide (folio.toNat ≤ y.hi)) = some y →
       m = elapseTo s.env s.m (y.filled + (65536 - y.cycles + rate - 1) / rate) →
       exec (.attrSpanExpiry x folio) s = .next (s.after (m.setSpans x.val ((m.spans x.val).erase y)))))
  ∧ (∀ (s : State) (line : Line) (err0 err1 : BitVec 40), Live s → sliceDead s.m (sliceOf line) = false →
      exec (.daReadDone line err0 err1) s = .next (s.after (daReadDone s.env s.m line err0 err1))
      ∧ exec (.daWriteDone line) s = .next (s.after (daWriteDone s.env s.m line))
      ∧ exec (.galleyEntryFree line) s = .next (s.after (galleyFree s.env s.m (sliceOf line)))
      ∧ ∀ x : Fin 16, exec (.fillStagingRelease x) s = .next (s.after (stagingFree s.env s.m x.val)))

/-- Composing sticks and end-point notices (R273, R295 to R299): a slice that is ready answers an open notice; a stick is flushed where
its slice demands it and 1 µs after it was opened; a notice that is the oldest of its channel (R70) counts its agent's epoch down. 
Where the specification leaves a choice it follows the model's, log entry 52. -/
def Obligations.StickTimersAndNotices : Prop :=
  ∀ (s : State) (p : HPort) (line : Line), Live s →
    (sliceReady s.m (sliceOf line) = true → exec (.stickOpenReply p line) s = .next (s.after (stickReply s.env s.m p line)))
    ∧ (∀ r, demandsFlush s.env s.m p line = (true, r) → exec (.stickFlushDemand p line) s = .next (s.after
      (flushStick s.env s.m p line (if r then 5 else 4) false)))
    ∧ (∀ y, s.m.stickAt p line = some y → exec (.stickTimeout p line) s = .next (s.after
      (flushStick s.env (elapseTo s.env s.m (y.tick + 50)) p line 1 false)))
    ∧ (∀ a n y, s.m.coh.notices.find? (fun n' => n'.2 == (p, a, n)
        && (s.m.coh.notices.find? fun z => z.1 == n'.1 && z.2.1 == p) == some n') = some y →
      exec (.endPointNotice p a n) s = .next (s.after
        (decEpoch s.env (s.m.setCoh fun c => { c with notices := c.notices.erase y }) p a n)))

/-- Islands stop and wake (R72 to R86, R92, R103): the firmware's stop is carried out on an island that may stop; each wake cause wakes a
stopped one, a message also brings a channel's components out of self-refresh; an island that does not report ready within 2 µs has a
failed clock; AON captures every running island.  Failed clocks (R100 to R111, R91): a window compares its counts and names the second
failed one in a row; a link whose reference is lost goes DOWN with REF_LOST (R105); a PLL that has not locked 1 ms after the start has
a failed clock; a lost crystal is logged once and the count check rests; an access that its island does not answer within 2 µs is
abandoned and logged.  Where the specification leaves a choice it follows the model's, log entries 26, 36, 37 and 111. -/
def Obligations.IslandsAndClocks : Prop :=
  (∀ (s : State) (i : Fin 32), Live s →
     (s.m.jpc.fw = .running → canStop s.env s.m i = true → s.m.isl.waking.getLsbD i = false →
       exec (.islandStop i) s = .next (s.withM (stopIsland s.env s.m i)))
     ∧ (∀ c : WakeCause, (c = .refresh → 21 ≤ i.val ∧ i.val < 29 ∧ (s.m.dac (i.val - 21)).sref = false ∧ (s.m.dac (i.val - 21)).st ≠ .failed) →
       (c = .firmware → s.m.jpc.fw = .running) →
       exec (.islandWake i c) s = .next (s.withM (if c = .message ∧ 21 ≤ i.val ∧ i.val < 29
         then leaveSref (wakeIsland s.env s.m i) (i.val - 21) else wakeIsland s.env s.m i)))
     ∧ (stoppable i = true → s.m.isl.run.getLsbD i = false →
       exec (.wakeReadyTimeout i) s = .next (s.after (clkFail s.env (elapse s.env s.m 100) i 5)))
     ∧ (∀ m, m = (List.range 32).foldl (fun m i => if m.island i then captureIsland s.env m i else m) s.m →
       exec .mirrorCapture s = .next (s.withM (m.setIsl fun x => { x with mirrorTick := some m.now }))))
  ∧ (∀ (s : State), Live s →
      (∀ (i : Fin 31) (n : Nat) m, (s.m.isl.clkFail).getLsbD 31 = false →
        m = (elapseTo s.env s.m ((s.m.now / 256 + 1) * 256)).setIsl (fun x => { x with excluded := 0 }) →
        m.isl.clkFail.getLsbD 31 = false → m.island i = true →
        (elapseTo s.env s.m ((s.m.now / 256 + 1) * 256)).isl.excluded.getLsbD i = false →
        (countBad (expectedCount s.env m i) n = false → exec (.clockCheckWindow ⟨[(i, n)], []⟩) s = .next (s.after
          (m.setIsl fun x => { x with failedWindow := x.failedWindow &&& ~~~((1 : Word) <<< i.val) })))
        ∧ (countBad (expectedCount s.env m i) n = true → m.isl.failedWindow.getLsbD i = false →
          exec (.clockCheckWindow ⟨[(i, n)], []⟩) s = .next (s.after
            (m.setIsl fun x => { x with failedWindow := x.failedWindow ||| ((1 : Word) <<< i.val) })))
        ∧ (countBad (expectedCount s.env m i) n = true → m.isl.failedWindow.getLsbD i = true →
          exec (.clockCheckWindow ⟨[(i, n)], []⟩) s = .next (s.after (clkFail s.env m i 5))))
      ∧ (∀ l m, m = elapseTo s.env s.m ((s.m.now / 256 + 1) * 256) → (m.link l).st ≠ .down →
        exec (.clockCheckWindow ⟨[], [l]⟩) s = .next (s.after ((linkDown s.env m l 4).setIsl fun x => { x with excluded := 0 })))
      ∧ (∀ u, s.m.boot.phase = 1 → exec (.pllLockTimeout u) s = .next (s.after ((List.range 31).foldl
        (fun m i => if u.getLsbD i then unlockedPll s.env m i else m) (elapseTo s.env s.m (s.m.boot.since + 50000)))))
      ∧ (s.m.isl.clkFail.getLsbD 31 = false → exec .xtalLost s = .next (s.withM
        (log s.env (s.m.setIsl fun x => { x with clkFail := x.clkFail ||| 0x80000000 }) 0x0002 31 0 0 0)))
      ∧ (∀ p i a w, exec (.accessAbandon p i a w) s = .next (s.withM (showAbandoned
        (log s.env (elapse s.env s.m 100) 0x0003 i.val (BitVec.ofNat 32 i) a 0) p w a))))

/-- The data-array channels (R454 to R460, R757): training in phase 3 ends in FAILED or in ACTIVE with the failed pins marked; a refresh
wakes its island, applies the rate and the kind chosen, and is counted; MR4_POLL sets the rate for the next refresh; DQS_TRACKING
retimes the write path; a diagnosis ends.  Where the specification leaves a choice it follows the model's, log entries 75, 84 and 85. -/
def Obligations.ChannelCommands : Prop :=
  ∀ (s : State) (d : Fin 8), Live s →
    (∀ r, s.m.boot.phase = 3 → s.m.boot.stopped = false → s.m.jpc.fw = .running → dacPresent s.env d = true →
      exec (.daTraining d r) s = .next (s.after (endTraining s.env s.m d r)))
    ∧ (dacPresent s.env d = true → (s.m.dac d).st = .active → (s.m.dac d).sref = false →
      (∀ m, m = wakeIsland s.env s.m (dacIsland d) → exec (.refreshDue d) s = .next (s.withM (count s.env
        (m.setDac d { m.dac d with rate2x := (m.dac d).rateNext, sameBank := (m.dac d).sameBankNext })
        (dacIsland d) 6 (if (m.dac d).sameBankNext then 4 else 1) none)))
      ∧ (∀ b, exec (.mr4Poll d b) s = .next (s.withM (s.m.setDac d { s.m.dac d with rateNext := b })))
      ∧ exec (.dqsTracking d) s = .next (s.withM (s.m.setDac d { s.m.dac d with tracked := true })))
    ∧ (∀ a x, (s.m.dac d).diag = some a → exec (.pinDiagnosis d x) s = .next (s.after (diagnose s.env s.m d a.toNat x)))

/-- Energy and the hardware ceiling (R705 to R709, R724 to R729): a sample adds one µs of energy; a rail without a sample for 10 µs is in
fault; the ceiling's bucket is refilled, and issues are held while it holds less than the next one needs; power more than 3 % above
the ceiling with issue held is logged.  The die temperature (R731 to R733): a sample sets the warning at 100 °C and clears it below 97
°C, and starts the throttle at 105 °C 5 W (the ceilings count quarters of a watt) below the lesser of the ceiling and the last epoch's
power; each ms the throttle's ceiling falls by 5 W at 105 °C or more, though not below 60 W, and rises by 5 W or ends below 103 °C; at
115 °C the device trips.  Where the specification leaves a choice it follows the model's, log entries 31, 110 and 111. -/
def Obligations.EnergyAndHeat : Prop :=
  (∀ (s : State), Live s →
     (∀ rails est task m, m = elapseTo s.env s.m (s.m.ink.sampleTick + 50) →
       exec (.inkSample rails est task) s = .next (s.withM { m.setInk (fun i => { i with
         sampleTick := m.now, meas := i.meas + (List.range 7).foldl (fun n k => n + railValue m rails k) 0, est := i.est + est
         estTask := listAdd i.estTask task }) with free := m.free + 7 }))
     ∧ (∀ r : Fin 7, s.m.ink.sensorFault.getLsbD r = false → exec (.inkSensorFault r) s = .next (s.withM (log s.env
       (s.m.setInk fun i => { i with sensorFault := i.sensorFault ||| ((1 : BitVec 7) <<< r.val) }) 0x0801 31 (BitVec.ofNat 32 r) 0 0)))
     ∧ (∀ n m left, m = elapseTo s.env s.m (s.m.ink.refillTick + 50) →
       left = min (20 * (effCeil s.env m * 250)) (m.ink.bucket + effCeil s.env m * 250 - n) - Config.issueEnergy m.free →
       exec (.ceilBucketRefill n) s = .next (s.withM { m.setInk (fun i => { i with
         bucket := left, refillTick := m.now, ceilLimiting := decide (left < Config.issueEnergy (m.free + 1))
         ceilUs := i.ceilUs + bit (decide (left < Config.issueEnergy (m.free + 1))) }) with free := m.free + 2 }))
     ∧ (∀ w, effCeil s.env s.m * 103 < w * 100 → s.m.ink.ceilLimiting = true → exec (.ceilUnmet w) s = .next (s.withM (log s.env
       (wr s.env s.m rCeilUnmet (rd s.env s.m rCeilUnmet ||| 8)) 0x0802 31 (BitVec.ofNat 32 w) 0 0))))
  ∧ (∀ (s : State), Live s →
      (∀ t e m n, e = elapseTo s.env s.m (s.m.ink.thermTick + 5000) →
        m = e.setInk (fun i => { i with temp := t, thermTick := e.now }) →
        (t.toInt < 97 → exec (.thermalSample t) s = .next (s.withM (m.setInk fun i => { i with warn := false })))
        ∧ (97 ≤ t.toInt → t.toInt < 100 → exec (.thermalSample t) s = .next (s.withM m))
        ∧ (100 ≤ t.toInt → n = (if m.ink.warn then m
            else log s.env (m.setInk fun i => { i with warn := true }) 0x0803 31 (t.signExtend 32) 0 0) →
          (t.toInt < 105 ∨ n.ink.throttle = true → exec (.thermalSample t) s = .next (s.withM n))
          ∧ (105 ≤ t.toInt → n.ink.throttle = false → exec (.thermalSample t) s = .next (s.withM (log s.env
            (n.setInk fun i => { i with
              throttle := true, throttleTick := n.now
              thermCeil := some (min (guardCeil s.env n) ((rd s.env n 0x5007).toNat / 250) - 20) })
            0x0804 31 (t.signExtend 32) 0 0)))))
      ∧ (∀ c e m, s.m.ink.thermCeil = some c → e = elapseTo s.env s.m (s.m.ink.throttleTick + 50000) →
        m = e.setInk (fun i => { i with throttleTick := e.now }) →
        (105 ≤ m.ink.temp.toInt → exec .throttleStep s = .next (s.withM
          (m.setInk fun i => { i with thermCeil := some (if c ≤ 240 then c else max (c - 20) 240) })))
        ∧ (m.ink.temp.toInt < 103 → guardCeil s.env m ≤ c + 20 → exec .throttleStep s = .next (s.withM
          (m.setInk fun i => { i with thermCeil := none, throttle := false })))
        ∧ (m.ink.temp.toInt < 103 → c + 20 < guardCeil s.env m → exec .throttleStep s = .next (s.withM
          (m.setInk fun i => { i with thermCeil := some (c + 20) })))
        ∧ (103 ≤ m.ink.temp.toInt → m.ink.temp.toInt < 105 → exec .throttleStep s = .next (s.withM m)))
      ∧ (∀ t : BitVec 8, 115 ≤ t.toInt → exec (.thermalTrip t) s = .next (s.withM
        (((log s.env (s.m.setInk fun i => { i with temp := t }) 0x0805 31 (t.signExtend 32) 0 0).setPins fun p => { p with
          thermtrip := true, ready := false }).setBoot fun b => { b with txStopped := true }))))

/-- The epoch and its plan (R710 to R721): at the boundary the grant and the floor commanded before it apply and the epoch is settled; the
firmware's plan admits the tasks' chunks, the proof steps at the cost of Table 16.1 with 15 ink for each 64 KiB to write back (R741),
in their order as far as the room goes, but sets no quota more than 100 µs after the boundary, when the plan is missing; each
ISLAND_POLICY_CHECK stops the idle islands.  The chunks of the background tasks (R528, R715, R718): each is issued while its quota has
one left and does its task's work.  Where the specification leaves a choice it follows the model's, log entries 86 and 110. -/
def Obligations.EpochsAndChunks : Prop :=
  (∀ (s : State), Live s →
     (∀ f, exec (.epochBoundary f) s = .next { s.withM (closeEpoch s.env (elapseTo s.env s.m (s.m.epochStart + epochTicks)) f) with
       cfg := { s.cfg with grant := s.cfg.grantNext, floor := s.cfg.floorNext } })
     ∧ (∀ d q costs, costs = planCosts d (proofCosts s.m d.proof) → s.m.jpc.fw = .running → s.m.ink.planned = false →
       (s.m.ink.planMissing = false → s.m.now ≤ s.m.epochStart + 5000 → q = planTasks 0 costs (planRoom s.env s.m) →
         exec (.planEpoch d) s = .next (s.withM (passOpen (s.m.setInk fun i => { i with
           quota := q, deferred := listSub (costs.map List.length) q, planned := true, planMissing := false }) 20)))
       ∧ (s.m.epochStart + 5000 < s.m.now → q = [0, 0, 0, 0, 0, 0] →
         exec (.planEpoch d) s = .next (s.withM (passOpen (s.m.setInk fun i => { i with
           quota := q, deferred := listSub (costs.map List.length) q, planned := false, planMissing := true }) 20))))
     ∧ (s.m.ink.planned = false → exec .planMissing s = .next (s.withM
       ((elapseTo s.env s.m (s.m.epochStart + 5000)).setInk fun i => { i with planMissing := true })))
     ∧ (∀ f e m n, s.m.jpc.fw = .running → f.epochEdge = false → e = elapseTo s.env s.m (s.m.ink.policyTick + 5000) →
       m = e.setInk (fun i => { i with policyTick := e.now }) →
       n = (List.range 30).foldl (fun m i =>
         if (if (17 ≤ i && i ≤ 20) || i == 29 then linkIdle s.env m i else f.idle.getLsbD i) && canStop s.env m i
             && !m.isl.waking.getLsbD i then stopIsland s.env m i else m) m →
       exec (.islandPolicyCheck f) s = .next (s.withM ((List.range 8).foldl (fun m d =>
         if srefDue s.env m d then m.setDac d { m.dac d with sref := true } else m) n))))
  ∧ (∀ (s : State) (x : Fin 16) (lines : List Line) (m : M), Live s →
      (s.m.jpc.fw = .running → takeQuota s.m 0 = some m →
        exec (.drainTaskChunk lines) s = .next (s.after (cleanAll s.env (passOpen m 21) (lines.take 512) drainWork)))
      ∧ (∀ n, s.m.twin.st = .paired → s.m.twin.catchup.getLsbD x = true → sliceDead s.m x = false → takeQuota s.m 1 = some m →
        n = ((lines.take 512).filter fun l => (catchupLeft s.env m x).contains l).foldl sendWhole m →
        (catchupLeft s.env n x ≠ [] → exec (.mirrorCatchupChunk x lines) s = .next (s.after n))
        ∧ (catchupLeft s.env n x = [] → exec (.mirrorCatchupChunk x lines) s = .next (s.after
          (n.setTwin fun t => { t with catchup := t.catchup &&& ~~~((1 : BitVec 16) <<< x.val) }))))
      ∧ (s.m.modeBit mRetain = true → s.m.modeBit mDrain = false → (rd s.env s.m rInkPolicy).getLsbD 25 = true →
        sliceDead s.m x = false → takeQuota s.m 5 = some m →
        exec (.writebackSmoothingChunk x lines) s = .next (s.after (cleanAll s.env m (lines.take 512) fun m l =>
          sliceOf l == x.val && primaryFor m l && (m.galleyOf l).isNone && !(m.coh.staging.any fun g => g.line == l)
            && match findTag s.env m l false with
              | some w => (m.tagAt (tagKey s.fuse.variant l w)).age == 7
              | none => false))))

/-- CTL messages on an ACTIVE CKL (R505, R510 to R516, R551, R552): the firmware takes each from its ring; a hello is kept and judged once
this device's own is out, a refusal is logged, SHED_DONE and PAIR_COMMIT carry the attempt on, RELEASE_HALF hands the twin's side
over, and RELEASE_ACK deposes the device that has given up its side.  Mirror messages to the holder (R524, R527, R531): MIR_WRITE is
held, MIR_RELEASE makes the sector Invalid, MIR_FETCH is answered.  Where the specification leaves a choice it follows the model's,
log entries 40, 41 and 94. -/
def Obligations.PairMessages : Prop :=
  (∀ (s : State) (h : Hello) (q : Tag) (reason : BitVec 4) (m : M), Live s → s.fuse.variant.ckl = true →
     s.m.jpc.fw = .running →
     (Buffered s .ckl 0 1 → m = passOpen (s.received .ckl 0 1) 14 →
       exec (.pairHelloRx h) s = .next (s.after (checkHellos s.env (m.setTwin fun t => { t with hello := some h }))))
     ∧ (Buffered s .ckl 0 0 → m = passOpen (s.received .ckl 0 0) 14 →
       exec (.pairRefuseRx reason) s = .next (s.after (log s.env m 0x0602 srcCkl (reason.setWidth 32) 0 0))
       ∧ (s.m.twin.st = .shed → exec (.shedDoneRx q) s = .next (s.after
         (tryCommit s.env (m.setTwin fun t => { t with shedSeen := true }))))
       ∧ (s.m.twin.st = .shed → s.m.twin.senior = false → exec (.pairCommitRx q) s = .next (s.after (enterPaired s.env m)))
       ∧ (s.m.twin.st = .paired → exec (.releaseHalfRx q) s = .next (s.after (takeHalf s.env m)))
       ∧ (s.m.twin.st = .releasing → s.m.twin.shedSent = true → exec (.releaseAckRx q) s = .next (s.after
         (finishCmd s.env ((depose s.env m).setMir fun r => { r with relCmd := 0 }) m.mir.relCmd 0 0)))))
  ∧ (∀ (s : State) (tag : Tag) (poison full : Bool) (mem : MPort) (line : Line) (mask : Mask) (data : Data), Live s →
      s.fuse.variant.ckl = true →
      (∀ m k, k = (if full then 8 else 1 + ((List.range 8).filter fun k => mask.extractLsb' (16 * k) 16 != 0).length) →
        Buffered s .ckl 1 k → m = mirIn s.env (s.received .ckl 1 k) true →
        sliceDead m (sliceOf line) = false → exec (.mirWriteRx tag poison mem full line mask data) s = .next (s.after
          (holdMirror s.env (wakeIsland s.env m (sliceOf line)) ⟨tag, poison, mem, full, line, mask, data⟩)))
      ∧ (∀ m t, Buffered s .ckl 1 0 → m = mirIn s.env (s.received .ckl 1 0) false → sliceDead m (sliceOf line) = false →
        t = tagCheck s.env (wakeIsland s.env m (sliceOf line)) line →
        exec (.mirReleaseRx line) s = .next (s.after (if (findTag s.env t line true).isSome then setSector s.env t line true 0 else t)))
      ∧ (∀ m, Buffered s .ckl 1 0 → m = mirIn s.env (s.received .ckl 1 0) true → sliceDead m (sliceOf line) = false →
        exec (.mirFetchRx tag line) s = .next (s.after
          (fetchMirror s.env (tagCheck s.env (wakeIsland s.env m (sliceOf line)) line) tag line))))

/-- The twin's answers to the primary (R60, R504, R525, R531, R742): each completes the outstanding MIR_WRITE or MIR_FETCH that its mtag
names; one that names none is discarded as a violation with code STRAY_RSP. An ACK makes the newest version mirrored; a NAK acts by
its reason; MIR_DATA answers a fetch; MIR_LOST sends the line again.  Where the specification leaves a choice it follows the model's,
log entries 94 and 95. -/
def Obligations.MirrorPrimary : Prop :=
  ∀ (s : State) (tag : Tag) (poison : Bool) (data : Data) (line : Line) (reason : BitVec 2) (m n : M) (o : MirOut), Live s →
    s.fuse.variant.ckl = true → tag ≠ 0 →
    (∀ slots, slots = 0 ∨ slots = 8 → Buffered s .ckl 2 slots → takeAnswer (count s.env (s.received .ckl 2 slots) 29 7 1 none) tag = some (n, o) →
      sliceDead n (sliceOf o.line) = false → m = wakeIsland s.env n (sliceOf o.line) →
      (slots = 0 → o.fetch = false → exec (.mirAckRx tag) s = .next (s.after (mirAcked s.env m o)))
      ∧ (slots = 0 → o.fetch = true → exec (.mirAckRx tag) s = .next (s.after (fetchAnswerLost s.env m o.line)))
      ∧ (slots = 0 → o.fetch = false → ∀ t, t = bump s.env m (rMirNak + reason.toNat) 1 →
        exec (.mirNakRx tag reason) s = .next (s.after (notAcked s.env (count s.env t (sliceOf o.line) 0x14 1 none) o.line o.mtag false
          fun m => nakAction s.env m o.line reason.toNat)))
      ∧ (slots = 0 → o.fetch = false → exec (.mirLostRx tag line) s = .next (s.after
        (notAcked s.env (bump s.env m rMirLost 1) o.line o.mtag true fun m =>
          sendWhole (if sectorOf s.env m o.line = 3 then setSector s.env m o.line false 2 else m) o.line)))
      ∧ (slots = 0 → o.fetch = true → exec (.mirLostRx tag line) s = .next (s.after
        (fetchAnswerLost s.env (bump s.env m rMirLost 1) o.line)))
      ∧ (∀ t d p, slots = 8 → o.fetch = true → m.txnOf o.line = some t → t.phase = .mirFetch → sectorOf s.env m o.line = 0 →
        overGalley m o.line data poison = (d, p) →
        exec (.mirDataRx tag poison data) s = .next (s.after (dataReady s.env m o.line d p))))
    ∧ (Buffered s .ckl 2 0 → takeAnswer (count s.env (s.received .ckl 2 0) 29 7 1 none) tag = none →
      exec (.mirAckRx tag) s = .next (s.after (violate s.env (count s.env (s.received .ckl 2 0) 29 7 1 none) .ckl 0x14 none tag
        0x50 true true)))

/-- The timers of the pair (R398, R399, R513, R516, R532 to R534, R542, R544): a MIR_NAK BUSY is sent again after 1 µs, a lost CKL and
lost beacons are declared, SUSPECT is evaluated each tick, an isolated device adopts without a beacon, the drain of a SPLIT device
ends, phase 2 of a shed starts, an attempt reaches its limit, and a sweep ends.  BEACON_SEND (R398): while a pair or an attempt is
there, each interval sends one beacon on every host port that can take it and raises the beacon's sequence number.  Where the
specification leaves a choice it follows the model's, log entries 58, 88, 89, 91 and 97. -/
def Obligations.PairTimersAndBeacons : Prop :=
  (∀ (s : State), Live s →
     (∀ line x, s.m.mir.busyRetry.find? (fun x => x.1 == line) = some x → exec (.mirNakBusyRetry line) s = .next (s.after
       ((elapseTo s.env s.m (x.2 + 50)).setMir fun r => { r with
         busyRetry := r.busyRetry.erase x, resend := if r.resend.contains line then r.resend else r.resend ++ [line] })))
     ∧ (s.m.twin.st = .paired ∨ s.m.twin.st = .releasing → (s.m.link .ckl).st ≠ .active → exec .cklLost s = .next (s.after
       (declareLost s.env (elapseTo s.env s.m ((s.m.link .ckl).inactive + 10000)))))
     ∧ (∀ t m, s.m.twin.st = .paired → s.m.mir.heard = some t → m = elapseTo s.env s.m (t + 3000) →
       s.m.twin.beaconLost = false → exec .beaconLost s = .next (s.after
         (log s.env (m.setTwin fun t => { t with beaconLost := true }) 0x0605 srcCkl (BitVec.ofNat 32 m.twin.st.n) 0 0)))
     ∧ (s.m.twin.st = .suspect → exec .suspectEval s = .next (s.after (suspectEval s.env (elapse s.env s.m 1))))
     ∧ (∀ p, s.m.twin.st = .isolated → portUp s.m p = true → s.m.mir.isolatedSince = none →
       exec (.isolatedPortActive p) s = .next (s.after (s.m.setMir fun r => { r with isolatedSince := some s.m.now })))
     ∧ (∀ t, s.m.mir.isolatedSince = some t → s.m.twin.st = .isolated → portUp s.m .hpa = true ∨ portUp s.m .hpb = true →
       exec .isolatedNoBeacon s = .next (s.after (adopt s.env (elapseTo s.env s.m (t + 3000)))))
     ∧ (s.m.twin.st = .split → drainClean s.m = true →
       exec .drainDoneOwn s = .next (s.after (s.m.setTwin fun t => { t with drainOwn := true })))
     ∧ (s.m.twin.shedPhase = 1 → shedDirty s.m = false → exec .shedPhase2 s = .next (s.after
       (pumpShed s.env ((flushLines s.env s.m (shedding s.m) 16).setTwin fun t => { t with shedPhase := 2 }))))
     ∧ (s.m.twin.st = .hello → exec .pairAttemptLimit s = .next (s.after
       (abandonAttempt s.env (elapseTo s.env s.m (s.m.twin.attemptStart + s.m.twin.attemptLimit)) 3)))
     ∧ (∀ x k, exec (.sweepProgress x k) s = .next (s.after
       (s.m.setCoh fun c => { c with sweeps := c.sweeps.filter fun y => y != (x.val, k) }))))
  ∧ (∀ (s : State) (m : M), Live s → s.fuse.variant.ckl = true →
      s.m.twin.solo = false ∨ s.m.twin.st = .hello ∨ s.m.twin.st = .shed ∨ s.m.twin.st = .adopted ∨ s.m.twin.st = .deposed →
      m = [Lnk.hpa, .hpb].foldl (fun m l => if m.txOn && (m.link l).txq.isEmpty && (m.link l).canSend [.beacon (myBeacon s.env s.m)]
        then transmit s.env m l [.beacon (myBeacon s.env s.m)] else m) s.m →
      exec .beaconSend s = .next (s.after (m.setMir fun r => { r with beaconSeq := r.beaconSeq + 1 })))

/-- Proof and patrol (R734 to R756): an admitted step of an item with nothing to evacuate is tested at once, one of another item first
empties its block, and its window is tested; the end of an evacuation opens the window; a patrol chunk does its work; a pass that has
not ended in its period is logged late.  Where the specification leaves a choice it follows the model's, log entries 64, 83 and 112. -/
def Obligations.ProofAndPatrolWork : Prop :=
  ∀ (s : State), Live s →
    (∀ id r f, s.m.runOf id = some r → s.m.jpc.fw = .running → r.state = 1 → runReady r = false → r.evacuating = false →
      (r.window = true → exec (.proofStep id f) s = .next (s.after (testStep s.env s.m r f)))
      ∧ (∀ m, r.window = false → r.stopping = false → takeQuota s.m 3 = some m →
        (4 ≤ r.item.toNat → exec (.proofStep id f) s = .next (s.after (testStep s.env (proofOrder m r r.step) r f)))
        ∧ (∀ n, r.item.toNat < 4 → n = (proofOrder m r r.step).updRun r.id (fun r => { r with evacuating := true }) →
          ∀ t, t = goOn s.env (if r.item = 3 then n else evacuate s.env n (r.unit / 16) (r.unit % 16) r.step)
            { r with evacuating := true } →
          (∀ q, t.runOf r.id = some q → q.window = true → exec (.proofStep id f) s = .next (s.after (testStep s.env t q f)))
          ∧ (∀ q, t.runOf r.id = some q → q.window = false → exec (.proofStep id f) s = .next (s.after t)))))
    ∧ (∀ x b, exec (.evacComplete x b) s = .next (s.after
      ((s.m.proof.runs.filter fun r => r.evacuating && r.unit / 16 == x.val && r.step == b).foldl (goOn s.env) s.m)))
    ∧ (∀ da reads m, s.m.jpc.fw = .running → patrolDue s.env s.m da = true →
      patrolQuota s.env s.m da = some m → ∀ n,
      n = passRing m 18 (entryOf16 [(0, 1 - bit da), (4, (m.pass da).done), (8, 1)]) →
      exec (.patrolChunk da reads) s = .next (s.after (chunkDone s.env
        (if da then patrolData s.env n (m.pass da).done reads else patrolTag s.env n (m.pass da).done) da)))
    ∧ (∀ da, patrolOn s.env s.m da = true → (s.m.pass da).late = false → ∀ m,
      m = elapseTo s.env s.m ((s.m.pass da).start + patrolTicks s.cfg) →
      exec (.patrolLate da) s = .next (s.after (log s.env (m.setPass da { s.m.pass da with late := true }) 0x0904 srcJpc
        (BitVec.ofNat 32 (1 - bit da)) 0 0)))

/-- Quoins (R839 to R850): a read of a free quoin acquires it and returns 0, or 0x8000_0000 where it is stale; a read of a held one
returns its owner; only its owner's own ID releases it; QUO_BREAK releases a held quoin as an owner loss; a hold of the firmware that
reaches the limit is broken, under guard 5. -/
def Obligations.Quoins : Prop :=
  ∀ (s : State) (a : Acc) (q : Fin 64) (m : M),
    (Reaches s a (0x3000 + q) false → m = s.woken (0x3000 + q) →
      ((m.quoin q).owner = 0 → exec (.quoRead a q) s = .next (s.applied (returning (m.setQuoin q ⟨ownerId a, false, m.now⟩)
        (if (m.quoin q).stale then 0x80000000 else 0))))
      ∧ ((m.quoin q).owner ≠ 0 → exec (.quoRead a q) s = .next (s.applied (returning m ((m.quoin q).owner.setWidth 32)))))
    ∧ (∀ v, Reaches s a (0x3000 + q) true → m = s.woken (0x3000 + q) →
      ((m.quoin q).owner = ownerId a → v = (ownerId a).setWidth 32 →
        exec (.quoWrite a q v) s = .next (s.applied (returning (m.setQuoin q .free) 0)))
      ∧ ((m.quoin q).owner ≠ ownerId a ∨ v ≠ (ownerId a).setWidth 32 →
        exec (.quoWrite a q v) s = .next (s.applied (returning m 0))))
    ∧ (∀ v : Word, Reaches s a 18 true → m = s.woken 18 → v.getLsbD 8 = true → fld v 0 6 = q →
      ((m.quoin q).owner ≠ 0 → exec (.quoBreak a v) s = .next (s.applied (returning (m.setQuoin q ⟨0, true, 0⟩) 0)))
      ∧ ((m.quoin q).owner = 0 → exec (.quoBreak a v) s = .next (s.applied (returning m 0))))
    ∧ (Live s → ownerPath (s.m.quoin q).owner = 5 →
      m = elapseTo s.env s.m ((s.m.quoin q).since + 50 * fld (rd s.env s.m rQuoinMax) 0 16) →
      exec (.quoinHoldLimit q) s = .next (s.withM (guardBlock s.env (m.setQuoin q ⟨0, true, 0⟩) 5 6)))

/-- Counters (R782, R783): a read of a counter's low word returns it and latches the high word for the path; a read of the high word
returns the latched value and drops the latch, or the present one without a latch; a write of the low word sets it and clears the high
word.  Snapshots (R786 to R791): a start begins a walk, or is held while one runs; a walk that has visited its blocks ends.  Where the
specification leaves a choice it follows the model's, log entry 38. -/
def Obligations.CountersAndSnapshots : Prop :=
  (∀ (s : State) (a : Acc) (c : CtrId) (w : Nat) (m : M), m = s.woken w →
     (ctrWord c 1 = some w → Reaches s a w false → exec (.pmcLoRead a c) s = .next (s.applied (returning
       (setLatch m a.path (c.island * 16 + c.k) (some (((m.ctr c.island c.k) >>> 32).setWidth 16)))
       ((m.ctr c.island c.k).setWidth 32))))
     ∧ (ctrWord c 2 = some w → Reaches s a w false →
       (∀ v, m.latchOf a.path (c.island * 16 + c.k) = some v → exec (.pmcHiRead a c) s = .next (s.applied (returning
         (setLatch m a.path (c.island * 16 + c.k) none) (v.setWidth 32))))
       ∧ (m.latchOf a.path (c.island * 16 + c.k) = none → exec (.pmcHiRead a c) s = .next (s.applied (returning m
         (((m.ctr c.island c.k) >>> 32).setWidth 32)))))
     ∧ (∀ v, ctrWord c 1 = some w → Reaches s a w true →
       exec (.pmcLoWrite a c v) s = .next (s.applied (returning (m.setCtr c.island c.k (v.setWidth 48)) 0))))
  ∧ (∀ (s : State) (a : Acc) (ws : List Nat) (m : M), m = s.woken 0x6000 →
      (Reaches s a 0x6000 true → exec (.prfSnapStart a) s = .next (s.applied (returning (startWalk m) 0)))
      ∧ (Live s → s.m.prf.busy = true → exec (.prfWalkDone ws) s = .next (s.withM (endWalk s.env s.m ws))))

/-- Doorbells, the order of the rings and the controller's register (R565, R578, R605, Table 12.13): a doorbell moves its ring; a command
whose ring has not its turn stays in it, and no ring of class 0 has its turn while one of class 1 is ready; GLB_JPC_CTL restarts or
halts the controller for a host or SMBus, is ignored from JTAG, and is refused to the controller itself under guard 2.  The windows
(R811, R824 to R834, R93, Table 18.1): a write in the bit-alias window changes one bit, a read in the mirror window returns the AON
copy and has no other effect, an access in the ring window reaches ring storage, a write in the direct window its register.  Where the
specification leaves a choice it follows the model's, log entries 36, 98, 104, 118 and 132. -/
def Obligations.MailboxAndWindows : Prop :=
  (∀ (s : State) (a : Acc) (m : M),
     (∀ (r : Fin 40) v, Reaches s a (0x2080 + r) true → m = s.woken (0x2080 + r) →
       exec (.mbxDoorbell a r v) s = .next (s.applied (returning (doorbell s.env m a r v) 0)))
     ∧ (Reaches s a 3 true → m = s.woken 3 →
       (a.path ≠ .jtag → a.path ≠ .jpc →
         exec (.jpcCtlRestart a) s = .next (s.applied (fin s.env (returning (restartJpc s.env m 2) 0)))
         ∧ exec (.jpcCtlHalt a) s = .next (s.applied (fin s.env (returning (haltJpc s.env m 2) 0))))
       ∧ (a.path = .jtag → exec (.jpcCtlRestart a) s = .next (s.applied (fin s.env (returning m 0))))
       ∧ (a.path = .jpc → exec (.jpcCtlRestart a) s = .next (s.applied (fin s.env (returning (guardBlock s.env m 2 5) 0)))))
     ∧ (∀ d : Desc, Live s → inTurn s.m d.ring = false → exec (.infoGet d) s = .next s)
     ∧ (∀ r q, r ∈ classRings false → q ∈ classRings true → ringReady s.m q = true → inTurn s.m r = false))
  ∧ (∀ (s : State) (a : Acc) (addr v : Word), Live s → pathUp s.m a.path = true →
      (∀ w b own m, target addr = .alias_ w b own → allowed s.env s.m a (.alias_ w b own) true = true →
        regAbsent s.fuse.variant w = false → (regIsland w = 31 ∨
          (s.m.isl.clkFail.getLsbD (regIsland w) = false ∧ s.m.isl.clkFail.getLsbD 16 = false)) → m = s.woken w →
        exec (.bitAliasWrite a addr v) s = .next (s.applied (fin s.env (returning (writeAlias s.env m a w b v) 0))))
      ∧ (∀ w own, target addr = .mirror w own → allowed s.env s.m a (.mirror w own) false = true →
        exec (.mirrorWindowRead a addr) s = .next (s.applied (returning s.m (mirrorRead s.env s.m w))))
      ∧ (∀ r k m, target addr = .ring r k → s.m.isl.clkFail.getLsbD 30 = false → s.m.isl.clkFail.getLsbD 16 = false →
        m = wakeIsland s.env s.m 30 →
        (allowed s.env s.m a (.ring r k) false = true →
          exec (.ringWindowAccess a addr false v) s = .next (s.applied (returning m (readRing s.env m a r k))))
        ∧ (allowed s.env s.m a (.ring r k) true = true →
          exec (.ringWindowAccess a addr true v) s = .next (s.applied (returning (writeRing s.env m a r k v) 0))))
      ∧ (∀ w m, Reaches s a w true → m = s.woken w → exec (.regWrite a (regAddr w) v) s = .next
        (s.applied (fin s.env (returning (writeReg s.env m a w v) 0)))))

/-- Reads with effects (R96, R864, R865, R871): a read of a register returns its value and clears its RC bits; a read of the first data
register of a selector captures what the path has selected; a write of the selector selects and drops the capture. -/
def Obligations.ReadsWithEffects : Prop :=
  ∀ (s : State) (a : Acc),
    (∀ w m, Reaches s a w false → m = s.woken w → rcBits w ≠ 0 →
      exec (.rcRegisterRead a (regAddr w)) s = .next (s.applied (returning (clearRc s.env m w) (regView s.env m a.path w))))
    ∧ (∀ m, Reaches s a rAlert false → m = s.woken rAlert → exec (.errAlertRead a) s = .next (s.applied (returning
      (clearRc s.env m rAlert) (regView s.env m a.path rAlert))))
    ∧ (∀ aux w m, w = (if aux then 0x8007 else 0x8006) → Reaches s a w false → m = s.woken w →
      exec (.imposeResultRead a aux) s = .next (s.applied (returning m (regView s.env m a.path w))))
    ∧ (∀ sel m, Reaches s a (selData0 sel) false → m = s.woken (selData0 sel) → ∀ t, t = (match sel with
          | .log => captureLog m a.path
          | .slip => captureSlip m a.path
          | .tag x => captureTag s.env m a.path x
          | .dir x => captureDir s.env m a.path x) →
      exec (.selectorData0Read a sel) s = .next (s.applied (returning t (regView s.env t a.path (selData0 sel)))))
    ∧ (∀ v m, Reaches s a 0x4006 true → m = s.woken 0x4006 →
      exec (.selectorWrite a .log v) s = .next (s.applied (returning (setSel m a.path 0 v) 0)))
    ∧ (∀ (x : Fin 16) v m, Reaches s a (rSlc x 5) true → m = s.woken (rSlc x 5) →
      exec (.selectorWrite a (.tag x) v) s = .next (s.applied (returning (setSel m a.path (2 + x) (v &&& 0xF7FFF)) 0)))

/-- Settings that registers hold (R229, R230, R362, R419, R438, R450, R869): a legal histogram shift that differs clears the bins;
GLB_APP_POLICY and the histogram shift apply at the end of the access; MEMPORT_EQUIV keeps bit 0; a channel's timings are taken in
RESET only, an illegal speed not at all; a link's configuration register writes threshold, width and hold_down.  Where the
specification leaves a choice it follows the model's, log entries 76 and 77. -/
def Obligations.SettingAccesses : Prop :=
  ∀ (s : State) (a : Acc) (v : Word) (m : M),
    (Reaches s a 0x6009 true → m = s.woken 0x6009 →
      (3 ≤ fld v 0 4 → fld v 0 4 ≤ 10 → fld v 0 4 ≠ s.cfg.histShift.toNat →
        exec (.histShiftWrite a v) s = .next (s.applied (returning (clearBins (writeSetting m 0x6009 v)) 0)))
      ∧ (fld v 0 4 < 3 ∨ 10 < fld v 0 4 ∨ fld v 0 4 = s.cfg.histShift.toNat →
        exec (.histShiftWrite a v) s = .next (s.applied (returning m 0))))
    ∧ (Reaches s a 12 true → m = s.woken 12 → exec (.appPolicyWrite a v) s = .next (s.applied (returning (writeSetting m 12 v) 0)))
    ∧ (Reaches s a rEquiv true → m = s.woken rEquiv → a.path ≠ .jtag → a.path ≠ .jpc →
      exec (.memportEquivWrite a v) s = .next (s.applied (returning (wr s.env m rEquiv (v &&& 1)) 0)))
    ∧ (∀ d : Fin 8, Reaches s a (rDac d 0xC) true → m = s.woken (rDac d 0xC) →
      ((m.dac d).st = .reset → fld v 0 3 < 5 →
        exec (.dacTimingWrite a d 0 v) s = .next (s.applied (returning (wr s.env m (rDac d 0xC) (v &&& 0x7FFFFFF)) 0)))
      ∧ ((m.dac d).st ≠ .reset ∨ 5 ≤ fld v 0 3 → exec (.dacTimingWrite a d 0 v) s = .next (s.applied (returning m 0))))
    ∧ (∀ l, Reaches s a (rLinkCfg l) true → m = s.woken (rLinkCfg l) →
      exec (.linkCfgThresholdWrite a l v) s = .next (s.applied (fin s.env (returning (writeLinkCfg s.env m l v) 0)))
      ∧ exec (.linkCfgHoldDownWrite a l v) s = .next (s.applied (fin s.env (returning (writeLinkCfg s.env m l v) 0))))

/-- SMBus and JTAG (R812 to R817, R929, R932, R937): REG_READ and REG_WRITE with their byte counts carry out one access and leave its
status, LAST_STATUS returns the last one, and 30 ms of a low clock lose SMBus's quoins; a REG_ACCESS with its start bit carries out
one access, which in reset completes as abandoned.  Where the specification leaves a choice it follows the model's, log entries 8 and
39. -/
def Obligations.BoardPaths : Prop :=
  ∀ (s : State) (addr data : Word) (t : M) (x : AccEnd), s.m.pins.testSampled = false →
    (Live s → pathUp s.m .smbus = true →
      ((t, x) = access s.env s.m smbAcc addr false 0 → exec (.smbusRegRead addr 4) s = .next (s.applied (fin s.env
        (t.setAcc fun a => { a with smbRead := BitVec.ofNat 8 (bit (x == .abandoned)), smbData := a.readData }))))
      ∧ ((t, x) = access s.env s.m smbAcc addr true data → exec (.smbusRegWrite addr data 8 true) s = .next (s.applied (fin s.env
        (t.setAcc fun a => { a with smbStatus := BitVec.ofNat 8 (bit (x == .abandoned)) }))))
      ∧ (∀ n, n ≠ 8 → exec (.smbusRegWrite addr data n true) s = .next (s.applied (s.m.setAcc fun a => { a with smbStatus := 2 })))
      ∧ exec .smbusLastStatus s = .next (s.withM (s.m.setAcc fun a => { a with readData := a.smbStatus.setWidth 32 })))
    ∧ (Live s → exec .smbusTimeout s = .next (s.withM (loseQuoins (elapse s.env s.m 1500000) fun o => ownerPath o = 3)))
    ∧ (∀ (w : Bool) m, s.m.acc.jtagDone = true → m = s.m.setAcc (fun a => { a with tapIr := 0x20 }) →
      (Live s → pathUp m .jtag = true → (t, x) = access s.env m { path := .jtag } addr w data →
        exec (.jtagRegAccess (BitVec.ofBool true ++ BitVec.ofBool w ++ data ++ addr)) s = .next (s.applied (fin s.env
          (t.setAcc fun a => { a with
            jtagAddr := addr, jtagDone := true, jtagAbandoned := x == .abandoned
            jtagData := if w then a.jtagData else a.readData }))))
      ∧ (s.m.alive = false → exec (.jtagRegAccess (BitVec.ofBool true ++ BitVec.ofBool w ++ data ++ addr)) s = .next
        (s.withM (showAbandoned m .jtag w addr))))

/-- Cold reset and the straps (R879, R880, R885 to R887, R919, R933, R936): a low COLD_RST_N resets everything but the slip, the flash
with its record, the TAP and the level of TEST_EN; at its rise the straps are sampled and phase 1 starts, unless a boundary-scan
instruction holds the device; a later change of TEST_EN shows in the strap register only; the loss of VDD_AON loses the slip.  What a
cold reset keeps (Table 20.5): the slip, the flash, the boot record and its copy, and the TAP; every mode, register, counter, quoin,
table and log entry is as at reset.  The TAP (R932 to R936): Test-Logic-Reset selects IDCODE, whose register holds the stepping, the
part, 0x2B7 and 1, and loses JTAG's quoins; EXTEST, HIGHZ and CLAMP act as the fall of COLD_RST_N and hold the device. EXTEST captures
the balls in the boundary register, which with CLAMP too drives READY and the open-drain outputs; with HIGHZ nothing drives them. 
Where the specification leaves a choice it follows the model's, log entries 122, 123 and 133. -/
def Obligations.ColdResetAndTap : Prop :=
  (∀ (s : State) (side t : Bool) (smb : BitVec 3),
     exec .coldReset s = .next { s.withM (coldState s.fuse s.m) with cfg := Cfg.reset s.fuse.variant }
     ∧ (s.m.pins.coldRstN = false → s.m.pins.jtagHold = false → ∀ m, m = s.m.setPins (fun p => { p with
           coldRstN := true, pairSide := side, smbStraps := smb, testEn := t, testSampled := t }) →
       exec (.coldRstNRise side smb t) s = .next (s.withM (m.setBoot fun b => { b with phase := 1, since := m.now })))
     ∧ (s.m.pins.coldRstN = false → s.m.pins.jtagHold = true → exec (.coldRstNRise side smb t) s = .next
       (s.withM (s.m.setPins fun p => { p with coldRstN := true, testEn := t })))
     ∧ exec (.testEnChange t) s = .next (s.withM (s.m.setPins fun p => { p with testEn := t }))
     ∧ exec .vddAonLoss s = .next (s.withM (s.m.setErr fun r => { r with slip := [], slip0 := none })))
  ∧ (∀ (f : Fuses) (m : M), m.err.degraded = false →
      (coldState f m).err.slip = m.err.slip ∧ (coldState f m).err.log = [] ∧ (coldState f m).jpc.flash = m.jpc.flash
        ∧ (coldState f m).jpc.record = m.jpc.record ∧ (coldState f m).jpc.recordCopy = m.jpc.recordCopy
        ∧ (coldState f m).acc.tapIr = m.acc.tapIr ∧ (coldState f m).acc.jtagData = m.acc.jtagData
        ∧ (coldState f m).modeActive = (M.reset f).modeActive ∧ (coldState f m).regs = [] ∧ (coldState f m).ctrs = []
        ∧ (coldState f m).quo = [] ∧ (coldState f m).coh.tags = [] ∧ (coldState f m).coh.dir = [] ∧ (coldState f m).array = []
        ∧ (coldState f m).alive = false ∧ ∀ w, rd ⟨f, Cfg.reset f.variant⟩ (coldState f m) w = regReset f w)
  ∧ ((∀ f : Fuses, (idcode f).getLsbD 0 = true ∧ (idcode f).extractLsb' 1 11 = 0x2B7
      ∧ (idcode f).extractLsb' 12 16 = (if f.variant.dacs = 8 then 0x2932 else 0x2916)
      ∧ (idcode f).extractLsb' 28 4 = f.stepping.extractLsb' 0 4)
    ∧ (∀ (e : Env) (m : M) (k : Nat), 3 ≤ k → k ≤ 6 →
      (m.acc.tapIr = 3 → sideOut e m k = none)
      ∧ (m.acc.tapIr = 0 ∨ m.acc.tapIr = 4 →
        sideOut e m k = if m.acc.boundary.getLsbD (576 + k) && k != 3 then none else some (m.acc.boundary.getLsbD (576 + k)))
      ∧ (m.acc.tapIr ≠ 0 → m.acc.tapIr ≠ 3 → m.acc.tapIr ≠ 4 → sideOut e m 3 = some m.pins.ready))
    ∧ ∀ (s : State), s.m.pins.testSampled = false →
      exec .tapReset s = .next (s.withM (loseQuoins (s.m.setAcc fun a => { a with
        tapIr := 2, tapDr := (idcode s.fuse).setWidth 604 }) fun o => ownerPath o = 4))
      ∧ ∀ c ir, (c, ir) ∈ [(Instr.jtagExtest, (0 : BitVec 8)), (.jtagHighz, 3), (.jtagClamp, 4)] → ∀ m, m = coldState s.fuse s.m →
        exec c s = .next { s.withM { m with
            free := m.free + 19
            acc := { m.acc with
              tapIr := ir
              tapDr := if ir = 0 then ballsSeen { m with
                acc := { m.acc with tapIr := ir }, pins := { m.pins with coldRstN := s.m.pins.coldRstN, jtagHold := true } } else 0 }
            pins := { m.pins with coldRstN := s.m.pins.coldRstN, jtagHold := true } } with cfg := Cfg.reset s.fuse.variant })

/-- Warm reset (R881, R896 to R899): before READY it restarts bring-up at once; after it, READY falls, the sticks are flushed and the wait
for responses begins; with MIRROR the drain follows, without it the reset; the drain ends when nothing is Dirty, or 4 s after the
recognition.  Where the specification leaves a choice it follows the model's, log entries 113, 119, 120 and 121. -/
def Obligations.WarmReset : Prop :=
  ∀ (s : State) (w : Warm) (m : M), Live s →
    (s.m.boot.relock = false → s.m.boot.warm = none → s.m.boot.phase ≠ 8 →
      exec .warmReset s = .next { s.withM (warmState s.env (warmLog s.env s.m ⟨s.m.now, s.m.modeBit mMirror, false, 0⟩)) with
        cfg := warmCfg s.env })
    ∧ (s.m.boot.relock = false → s.m.boot.warm = none → s.m.boot.phase = 8 →
      m = (s.m.setPins fun p => { p with ready := false }).setBoot (fun b => { b with
          warm := some ⟨s.m.now, s.m.modeBit mMirror, false, 0⟩ }) →
      exec .warmReset s = .next (s.after (flushAllSticks s.env m 8)))
    ∧ (s.m.boot.warm = some w → w.draining = false →
      [HPort.hpa, .hpb].any (fun p => passedBefore s.m p (s.m.mode.gen + 1)) = false →
      (w.mirror = true → exec .warmResponseWait s = .next (s.after
        (s.m.setBoot fun b => { b with warm := some { w with draining := true } })))
      ∧ (w.mirror = false → exec .warmResponseWait s = .next { s.withM (warmState s.env (warmLog s.env s.m w)) with
        cfg := warmCfg s.env }))
    ∧ (s.m.boot.warm = some w → w.draining = true →
      m = (if dirtyPrimary s.m = [] then s.m else elapseTo s.env s.m (w.start + 200000000)) →
      exec .warmDrainEnd s = .next { s.withM (warmState s.env (warmLog s.env m w)) with cfg := warmCfg s.env })

/-- Bring-up (Table 20.2, R888 to R892): the end of a phase's work starts the next phase; phase 4 clears the on-chip arrays, and phase 5
releases the ports; 200 ms after that bring-up goes on with the ports that are ACTIVE; the end of phase 7 raises READY.  Where the
specification leaves a choice it follows the model's, log entry 11. -/
def Obligations.BringUp : Prop :=
  ∀ (s : State), Live s → s.m.boot.stopped = false → s.m.boot.warm = none →
    (s.m.boot.phase = 1 → exec .bringupPhaseEnd s = .next (s.after (nextPhase s.m)))
    ∧ (s.m.jpc.fw = .running →
      (s.m.boot.phase = 2 → exec .bringupPhaseEnd s = .next (s.after (startTraining s.env (nextPhase s.m))))
      ∧ (s.m.boot.phase = 4 → exec .bringupPhaseEnd s = .next (s.after (releasePorts (nextPhase (initArrays s.m)))))
      ∧ (s.m.boot.phase = 5 → (∀ l : Lnk, l ≠ .ckl → (s.m.link l).st = .active) →
        exec .bringupPhaseEnd s = .next (s.after (enterPairing s.env s.m)))
      ∧ (s.m.boot.phase = 5 → (s.m.link .hpa).st ≠ .active → exec .linkPhaseTimeout s = .next (s.after
        (enterPairing s.env (elapseTo s.env s.m (s.m.boot.since + 10000000)))))
      ∧ (s.m.boot.phase = 6 → s.m.twin.st ≠ .hello → s.m.twin.st ≠ .shed →
        exec .bringupPhaseEnd s = .next (s.after (nextPhase s.m)))
      ∧ (s.m.boot.phase = 7 → exec .bringupPhaseEnd s = .next (s.after (raiseReady s.m))))

/-- R11 and R12: in every window and on every path, a read of a register of an absent unit returns 0 and a write of it is ignored; neither
changes anything but the word that the path is given, which is 0, nor ends in an error. The Crekar block, the channels beyond those of
the variant, the sampler and the far-atomic units are the units that a variant can lack. -/
def Obligations.AbsentRegisters : Prop :=
  (∀ (e : Env) (m : M) (a : Acc) (addr v : Word) (w : Nat) (write own : Bool), regAbsent e.fuse.variant w = true →
    (target addr = .direct w own ∨ target addr = .mirror w own ∨ ∃ b, target addr = .alias_ w b own) →
    allowed e m a (target addr) write = true → access e m a addr write v = (returning m 0, .done))
  ∧ (∀ (v : Variant) (k : Nat), k < 0x1000 →
    (v.ckl = false → regAbsent v (0xA000 + k) = true)
    ∧ (∀ d, v.dacs ≤ d → d < 8 → regAbsent v (0x20000 + 0x1000 * d + k) = true)
    ∧ (v.sample = false → (4 ≤ k ∧ k ≤ 9) ∨ 0xE ≤ k → regAbsent v (0x6000 + k) = true)
    ∧ (∀ x : Fin 16, v.far = false → 0x50 ≤ k → k ≤ 0x5F → regAbsent v (0x40000 + 0x1000 * x + k) = true))
  ∧ (∀ (s : State) (a : Acc) (addr v : Word) (w b : Nat) (own : Bool), Live s → pathUp s.m a.path = true →
    regAbsent s.fuse.variant w = true →
    (target addr = .direct w own → allowed s.env s.m a (target addr) true = true →
      exec (.regWrite a addr v) s = .next (s.applied (fin s.env (returning s.m 0))))
    ∧ (target addr = .alias_ w b own → allowed s.env s.m a (target addr) true = true →
      exec (.bitAliasWrite a addr v) s = .next (s.applied (fin s.env (returning s.m 0))))
    ∧ (target addr = .direct w own → allowed s.env s.m a (target addr) false = true →
      exec (.rcRegisterRead a addr) s = .next (s.applied (returning s.m 0))))

/-- R821: a write through the mirror window is ignored, on every path; an in-band one is answered CMP. -/
def Obligations.MirrorWindowWrites : Prop :=
  (∀ (e : Env) (m : M) (a : Acc) (addr v : Word) (w : Nat) (own : Bool), target addr = .mirror w own →
    (allowed e m a (target addr) true = true → access e m a addr true v = (returning m 0, .done))
    ∧ (allowed e m a (target addr) true = false → access e m a addr true v = (m, .denied)))
  ∧ (∀ (s : State) (h : ReqHdr) (m : M) (w : Nat) (own : Bool), Live s → NoneReady s → Formed s h .cfgWr 0 →
    ((s.m.port h.port).epochsOf h.agent).hold = [] →
    (s.m.port h.port).agentMap.getLsbD (h.agent.toNat % 32) = true → hdrReserved h .cfgWr = false →
    h.cfgAddr.extractLsb' 0 2 = 0 → target h.cfgAddr = .mirror w own → m = s.recorded h .cfgWr 0 0 0 →
    allowed s.env m (reqAcc (s.req h .cfgWr 0 0)) (target h.cfgAddr) true = true →
    exec (.cfgWr h) s = .next (s.applied (fin s.env (respondCfg s.env (returning m 0) h.port h.tag (.cmp h.tag false) false))))

/-- R388: a configuration request whose address is not aligned is answered ERR with code CFG_ALIGN, 0x10, and accesses nothing. -/
def Obligations.MisalignedConfig : Prop :=
  ∀ (s : State) (h : ReqHdr), Live s → NoneReady s → (s.m.port h.port).agentMap.getLsbD (h.agent.toNat % 32) = true →
    h.cfgAddr.extractLsb' 0 2 ≠ 0 →
    (Formed s h .cfgRd 0 → hdrReserved h .cfgRd = false → exec (.cfgRd h) s = .next (s.applied (fin s.env
      (portErr s.env (s.recorded h .cfgRd 0 0 0) (s.req h .cfgRd 0 0) 0x10))))
    ∧ (Formed s h .cfgWr 0 → hdrReserved h .cfgWr = false → exec (.cfgWr h) s = .next (s.applied (fin s.env
      (portErr s.env (s.recorded h .cfgWr 0 0 0) (s.req h .cfgWr 0 0) 0x10))))

/-- R847: cold reset and warm reset free every quoin with stale 0, and GLB_QUO_STALE_LO and GLB_QUO_STALE_HI read 0 after them. A warm
reset frees them where it resets the device: at once before READY, otherwise after the wait for responses and the drain. -/
def Obligations.ResetsFreeQuoins : Prop :=
  ∀ (s : State) (c : Instr) (w : Warm),
    (c = .coldReset
      ∨ (Live s ∧ c = .warmReset ∧ s.m.boot.relock = false ∧ s.m.boot.warm = none ∧ s.m.boot.phase ≠ 8)
      ∨ (Live s ∧ c = .warmResponseWait ∧ s.m.boot.warm = some w ∧ w.draining = false ∧ w.mirror = false)
      ∨ (Live s ∧ c = .warmDrainEnd ∧ s.m.boot.warm = some w ∧ w.draining = true)) →
    ∃ t, exec c s = .next t ∧ ∀ (q : Fin 64) (p : Path), t.m.quoin q = .free ∧ Quoin.free.owner = 0 ∧ Quoin.free.stale = false
      ∧ regView t.env t.m p 16 = 0 ∧ regView t.env t.m p 17 = 0

/-- R653: ADOPT REBUILT clears rebuild_pending (R539) and returns OK; outside ADOPTED with rebuild_pending 1 it returns STATE_CONFLICT
with block code PAIR_STATE and changes nothing but its rings. -/
def Obligations.AdoptRebuilt : Prop :=
  ∀ (s : State) (d : Desc), Taken s d false false false → s.fuse.variant.ckl = true → descOnly d [(8, 1)] = true →
    descArg d 8 1 = 1 →
    (s.m.twin.st = .adopted ∧ s.m.twin.rebuildPending = true → exec (.adoptRebuilt d) s = .next (s.after (s.ok d 0x0603
      ((s.took d).setTwin fun t => { t with rebuildPending := false }) 0)))
    ∧ (¬ (s.m.twin.st = .adopted ∧ s.m.twin.rebuildPending = true) → exec (.adoptRebuilt d) s = .next (s.after
      (postRsp s.env (s.took d) d 0x0603 0x13 (privileged s.m d) (conflictResult (s.took d) 8))))

/-- R441: PORT_UNFENCE of one agent of a fenced host port returns STATE_CONFLICT with block code PORT_STATE and lifts nothing. -/
def Obligations.UnfenceOfFencedPort : Prop :=
  ∀ (s : State) (d : Desc) (a : Agent), Taken s d false false false → descOnly d [(8, 1), (10, 1)] = true → descArg d 8 1 = 1 →
    descArg d 10 1 = a.toNat → linkFenced s.env s.m (agentPort a).lnk = true →
    exec (.portUnfenceAgent d) s = .next (s.after
      (postRsp s.env (s.took d) d 0x0D02 0x13 (privileged s.m d) (conflictResult (s.took d) 0xA)))
end

