-- ==== Sys2Proof/Laws/State.lean ====
section
/-!
SUPPORT. One lemma for each field of the machine after each of its updates, true by definition.
-/

namespace Sys2Proof.Machine

open Sys2Proof

@[simp] theorem M.setCoh_now (m : M) (f) : (m.setCoh f).now = m.now := rfl
@[simp] theorem M.setCoh_pins (m : M) (f) : (m.setCoh f).pins = m.pins := rfl
@[simp] theorem M.setCoh_boot (m : M) (f) : (m.setCoh f).boot = m.boot := rfl
@[simp] theorem M.setCoh_regs (m : M) (f) : (m.setCoh f).regs = m.regs := rfl
@[simp] theorem M.setCoh_ctrs (m : M) (f) : (m.setCoh f).ctrs = m.ctrs := rfl
@[simp] theorem M.setCoh_free (m : M) (f) : (m.setCoh f).free = m.free := rfl
@[simp] theorem M.setCoh_coh (m : M) (f) : (m.setCoh f).coh = f m.coh := rfl
@[simp] theorem M.setCoh_ports (m : M) (f) : (m.setCoh f).ports = m.ports := rfl
@[simp] theorem M.setCoh_mems (m : M) (f) : (m.setCoh f).mems = m.mems := rfl
@[simp] theorem M.setCoh_links (m : M) (f) : (m.setCoh f).links = m.links := rfl
@[simp] theorem M.setCoh_dacs (m : M) (f) : (m.setCoh f).dacs = m.dacs := rfl
@[simp] theorem M.setCoh_array (m : M) (f) : (m.setCoh f).array = m.array := rfl
@[simp] theorem M.setCoh_twin (m : M) (f) : (m.setCoh f).twin = m.twin := rfl
@[simp] theorem M.setCoh_mir (m : M) (f) : (m.setCoh f).mir = m.mir := rfl
@[simp] theorem M.setCoh_jpc (m : M) (f) : (m.setCoh f).jpc = m.jpc := rfl
@[simp] theorem M.setCoh_mode (m : M) (f) : (m.setCoh f).mode = m.mode := rfl
@[simp] theorem M.setCoh_ink (m : M) (f) : (m.setCoh f).ink = m.ink := rfl
@[simp] theorem M.setCoh_prf (m : M) (f) : (m.setCoh f).prf = m.prf := rfl
@[simp] theorem M.setCoh_quo (m : M) (f) : (m.setCoh f).quo = m.quo := rfl
@[simp] theorem M.setCoh_isl (m : M) (f) : (m.setCoh f).isl = m.isl := rfl
@[simp] theorem M.setCoh_proof (m : M) (f) : (m.setCoh f).proof = m.proof := rfl
@[simp] theorem M.setCoh_err (m : M) (f) : (m.setCoh f).err = m.err := rfl
@[simp] theorem M.setCoh_acc (m : M) (f) : (m.setCoh f).acc = m.acc := rfl
@[simp] theorem M.setCoh_fences (m : M) (f) : (m.setCoh f).fences = m.fences := rfl
@[simp] theorem M.setCoh_settings (m : M) (f) : (m.setCoh f).settings = m.settings := rfl
@[simp] theorem M.setCoh_out (m : M) (f) : (m.setCoh f).out = m.out := rfl
@[simp] theorem M.setCoh_flits (m : M) (f) : (m.setCoh f).flits = m.flits := rfl

@[simp] theorem M.setTwin_now (m : M) (f) : (m.setTwin f).now = m.now := rfl
@[simp] theorem M.setTwin_pins (m : M) (f) : (m.setTwin f).pins = m.pins := rfl
@[simp] theorem M.setTwin_boot (m : M) (f) : (m.setTwin f).boot = m.boot := rfl
@[simp] theorem M.setTwin_regs (m : M) (f) : (m.setTwin f).regs = m.regs := rfl
@[simp] theorem M.setTwin_ctrs (m : M) (f) : (m.setTwin f).ctrs = m.ctrs := rfl
@[simp] theorem M.setTwin_free (m : M) (f) : (m.setTwin f).free = m.free := rfl
@[simp] theorem M.setTwin_coh (m : M) (f) : (m.setTwin f).coh = m.coh := rfl
@[simp] theorem M.setTwin_ports (m : M) (f) : (m.setTwin f).ports = m.ports := rfl
@[simp] theorem M.setTwin_mems (m : M) (f) : (m.setTwin f).mems = m.mems := rfl
@[simp] theorem M.setTwin_links (m : M) (f) : (m.setTwin f).links = m.links := rfl
@[simp] theorem M.setTwin_dacs (m : M) (f) : (m.setTwin f).dacs = m.dacs := rfl
@[simp] theorem M.setTwin_array (m : M) (f) : (m.setTwin f).array = m.array := rfl
@[simp] theorem M.setTwin_twin (m : M) (f) : (m.setTwin f).twin = f m.twin := rfl
@[simp] theorem M.setTwin_mir (m : M) (f) : (m.setTwin f).mir = m.mir := rfl
@[simp] theorem M.setTwin_jpc (m : M) (f) : (m.setTwin f).jpc = m.jpc := rfl
@[simp] theorem M.setTwin_mode (m : M) (f) : (m.setTwin f).mode = m.mode := rfl
@[simp] theorem M.setTwin_ink (m : M) (f) : (m.setTwin f).ink = m.ink := rfl
@[simp] theorem M.setTwin_prf (m : M) (f) : (m.setTwin f).prf = m.prf := rfl
@[simp] theorem M.setTwin_quo (m : M) (f) : (m.setTwin f).quo = m.quo := rfl
@[simp] theorem M.setTwin_isl (m : M) (f) : (m.setTwin f).isl = m.isl := rfl
@[simp] theorem M.setTwin_proof (m : M) (f) : (m.setTwin f).proof = m.proof := rfl
@[simp] theorem M.setTwin_err (m : M) (f) : (m.setTwin f).err = m.err := rfl
@[simp] theorem M.setTwin_acc (m : M) (f) : (m.setTwin f).acc = m.acc := rfl
@[simp] theorem M.setTwin_fences (m : M) (f) : (m.setTwin f).fences = m.fences := rfl
@[simp] theorem M.setTwin_settings (m : M) (f) : (m.setTwin f).settings = m.settings := rfl
@[simp] theorem M.setTwin_out (m : M) (f) : (m.setTwin f).out = m.out := rfl
@[simp] theorem M.setTwin_flits (m : M) (f) : (m.setTwin f).flits = m.flits := rfl

@[simp] theorem M.setMir_now (m : M) (f) : (m.setMir f).now = m.now := rfl
@[simp] theorem M.setMir_pins (m : M) (f) : (m.setMir f).pins = m.pins := rfl
@[simp] theorem M.setMir_boot (m : M) (f) : (m.setMir f).boot = m.boot := rfl
@[simp] theorem M.setMir_regs (m : M) (f) : (m.setMir f).regs = m.regs := rfl
@[simp] theorem M.setMir_ctrs (m : M) (f) : (m.setMir f).ctrs = m.ctrs := rfl
@[simp] theorem M.setMir_free (m : M) (f) : (m.setMir f).free = m.free := rfl
@[simp] theorem M.setMir_coh (m : M) (f) : (m.setMir f).coh = m.coh := rfl
@[simp] theorem M.setMir_ports (m : M) (f) : (m.setMir f).ports = m.ports := rfl
@[simp] theorem M.setMir_mems (m : M) (f) : (m.setMir f).mems = m.mems := rfl
@[simp] theorem M.setMir_links (m : M) (f) : (m.setMir f).links = m.links := rfl
@[simp] theorem M.setMir_dacs (m : M) (f) : (m.setMir f).dacs = m.dacs := rfl
@[simp] theorem M.setMir_array (m : M) (f) : (m.setMir f).array = m.array := rfl
@[simp] theorem M.setMir_twin (m : M) (f) : (m.setMir f).twin = m.twin := rfl
@[simp] theorem M.setMir_mir (m : M) (f) : (m.setMir f).mir = f m.mir := rfl
@[simp] theorem M.setMir_jpc (m : M) (f) : (m.setMir f).jpc = m.jpc := rfl
@[simp] theorem M.setMir_mode (m : M) (f) : (m.setMir f).mode = m.mode := rfl
@[simp] theorem M.setMir_ink (m : M) (f) : (m.setMir f).ink = m.ink := rfl
@[simp] theorem M.setMir_prf (m : M) (f) : (m.setMir f).prf = m.prf := rfl
@[simp] theorem M.setMir_quo (m : M) (f) : (m.setMir f).quo = m.quo := rfl
@[simp] theorem M.setMir_isl (m : M) (f) : (m.setMir f).isl = m.isl := rfl
@[simp] theorem M.setMir_proof (m : M) (f) : (m.setMir f).proof = m.proof := rfl
@[simp] theorem M.setMir_err (m : M) (f) : (m.setMir f).err = m.err := rfl
@[simp] theorem M.setMir_acc (m : M) (f) : (m.setMir f).acc = m.acc := rfl
@[simp] theorem M.setMir_fences (m : M) (f) : (m.setMir f).fences = m.fences := rfl
@[simp] theorem M.setMir_settings (m : M) (f) : (m.setMir f).settings = m.settings := rfl
@[simp] theorem M.setMir_out (m : M) (f) : (m.setMir f).out = m.out := rfl
@[simp] theorem M.setMir_flits (m : M) (f) : (m.setMir f).flits = m.flits := rfl

@[simp] theorem M.setJpc_now (m : M) (f) : (m.setJpc f).now = m.now := rfl
@[simp] theorem M.setJpc_pins (m : M) (f) : (m.setJpc f).pins = m.pins := rfl
@[simp] theorem M.setJpc_boot (m : M) (f) : (m.setJpc f).boot = m.boot := rfl
@[simp] theorem M.setJpc_regs (m : M) (f) : (m.setJpc f).regs = m.regs := rfl
@[simp] theorem M.setJpc_ctrs (m : M) (f) : (m.setJpc f).ctrs = m.ctrs := rfl
@[simp] theorem M.setJpc_free (m : M) (f) : (m.setJpc f).free = m.free := rfl
@[simp] theorem M.setJpc_coh (m : M) (f) : (m.setJpc f).coh = m.coh := rfl
@[simp] theorem M.setJpc_ports (m : M) (f) : (m.setJpc f).ports = m.ports := rfl
@[simp] theorem M.setJpc_mems (m : M) (f) : (m.setJpc f).mems = m.mems := rfl
@[simp] theorem M.setJpc_links (m : M) (f) : (m.setJpc f).links = m.links := rfl
@[simp] theorem M.setJpc_dacs (m : M) (f) : (m.setJpc f).dacs = m.dacs := rfl
@[simp] theorem M.setJpc_array (m : M) (f) : (m.setJpc f).array = m.array := rfl
@[simp] theorem M.setJpc_twin (m : M) (f) : (m.setJpc f).twin = m.twin := rfl
@[simp] theorem M.setJpc_mir (m : M) (f) : (m.setJpc f).mir = m.mir := rfl
@[simp] theorem M.setJpc_jpc (m : M) (f) : (m.setJpc f).jpc = f m.jpc := rfl
@[simp] theorem M.setJpc_mode (m : M) (f) : (m.setJpc f).mode = m.mode := rfl
@[simp] theorem M.setJpc_ink (m : M) (f) : (m.setJpc f).ink = m.ink := rfl
@[simp] theorem M.setJpc_prf (m : M) (f) : (m.setJpc f).prf = m.prf := rfl
@[simp] theorem M.setJpc_quo (m : M) (f) : (m.setJpc f).quo = m.quo := rfl
@[simp] theorem M.setJpc_isl (m : M) (f) : (m.setJpc f).isl = m.isl := rfl
@[simp] theorem M.setJpc_proof (m : M) (f) : (m.setJpc f).proof = m.proof := rfl
@[simp] theorem M.setJpc_err (m : M) (f) : (m.setJpc f).err = m.err := rfl
@[simp] theorem M.setJpc_acc (m : M) (f) : (m.setJpc f).acc = m.acc := rfl
@[simp] theorem M.setJpc_fences (m : M) (f) : (m.setJpc f).fences = m.fences := rfl
@[simp] theorem M.setJpc_settings (m : M) (f) : (m.setJpc f).settings = m.settings := rfl
@[simp] theorem M.setJpc_out (m : M) (f) : (m.setJpc f).out = m.out := rfl
@[simp] theorem M.setJpc_flits (m : M) (f) : (m.setJpc f).flits = m.flits := rfl

@[simp] theorem M.setErr_now (m : M) (f) : (m.setErr f).now = m.now := rfl
@[simp] theorem M.setErr_pins (m : M) (f) : (m.setErr f).pins = m.pins := rfl
@[simp] theorem M.setErr_boot (m : M) (f) : (m.setErr f).boot = m.boot := rfl
@[simp] theorem M.setErr_regs (m : M) (f) : (m.setErr f).regs = m.regs := rfl
@[simp] theorem M.setErr_ctrs (m : M) (f) : (m.setErr f).ctrs = m.ctrs := rfl
@[simp] theorem M.setErr_free (m : M) (f) : (m.setErr f).free = m.free := rfl
@[simp] theorem M.setErr_coh (m : M) (f) : (m.setErr f).coh = m.coh := rfl
@[simp] theorem M.setErr_ports (m : M) (f) : (m.setErr f).ports = m.ports := rfl
@[simp] theorem M.setErr_mems (m : M) (f) : (m.setErr f).mems = m.mems := rfl
@[simp] theorem M.setErr_links (m : M) (f) : (m.setErr f).links = m.links := rfl
@[simp] theorem M.setErr_dacs (m : M) (f) : (m.setErr f).dacs = m.dacs := rfl
@[simp] theorem M.setErr_array (m : M) (f) : (m.setErr f).array = m.array := rfl
@[simp] theorem M.setErr_twin (m : M) (f) : (m.setErr f).twin = m.twin := rfl
@[simp] theorem M.setErr_mir (m : M) (f) : (m.setErr f).mir = m.mir := rfl
@[simp] theorem M.setErr_jpc (m : M) (f) : (m.setErr f).jpc = m.jpc := rfl
@[simp] theorem M.setErr_mode (m : M) (f) : (m.setErr f).mode = m.mode := rfl
@[simp] theorem M.setErr_ink (m : M) (f) : (m.setErr f).ink = m.ink := rfl
@[simp] theorem M.setErr_prf (m : M) (f) : (m.setErr f).prf = m.prf := rfl
@[simp] theorem M.setErr_quo (m : M) (f) : (m.setErr f).quo = m.quo := rfl
@[simp] theorem M.setErr_isl (m : M) (f) : (m.setErr f).isl = m.isl := rfl
@[simp] theorem M.setErr_proof (m : M) (f) : (m.setErr f).proof = m.proof := rfl
@[simp] theorem M.setErr_err (m : M) (f) : (m.setErr f).err = f m.err := rfl
@[simp] theorem M.setErr_acc (m : M) (f) : (m.setErr f).acc = m.acc := rfl
@[simp] theorem M.setErr_fences (m : M) (f) : (m.setErr f).fences = m.fences := rfl
@[simp] theorem M.setErr_settings (m : M) (f) : (m.setErr f).settings = m.settings := rfl
@[simp] theorem M.setErr_out (m : M) (f) : (m.setErr f).out = m.out := rfl
@[simp] theorem M.setErr_flits (m : M) (f) : (m.setErr f).flits = m.flits := rfl

@[simp] theorem M.setInk_now (m : M) (f) : (m.setInk f).now = m.now := rfl
@[simp] theorem M.setInk_pins (m : M) (f) : (m.setInk f).pins = m.pins := rfl
@[simp] theorem M.setInk_boot (m : M) (f) : (m.setInk f).boot = m.boot := rfl
@[simp] theorem M.setInk_regs (m : M) (f) : (m.setInk f).regs = m.regs := rfl
@[simp] theorem M.setInk_ctrs (m : M) (f) : (m.setInk f).ctrs = m.ctrs := rfl
@[simp] theorem M.setInk_free (m : M) (f) : (m.setInk f).free = m.free := rfl
@[simp] theorem M.setInk_coh (m : M) (f) : (m.setInk f).coh = m.coh := rfl
@[simp] theorem M.setInk_ports (m : M) (f) : (m.setInk f).ports = m.ports := rfl
@[simp] theorem M.setInk_mems (m : M) (f) : (m.setInk f).mems = m.mems := rfl
@[simp] theorem M.setInk_links (m : M) (f) : (m.setInk f).links = m.links := rfl
@[simp] theorem M.setInk_dacs (m : M) (f) : (m.setInk f).dacs = m.dacs := rfl
@[simp] theorem M.setInk_array (m : M) (f) : (m.setInk f).array = m.array := rfl
@[simp] theorem M.setInk_twin (m : M) (f) : (m.setInk f).twin = m.twin := rfl
@[simp] theorem M.setInk_mir (m : M) (f) : (m.setInk f).mir = m.mir := rfl
@[simp] theorem M.setInk_jpc (m : M) (f) : (m.setInk f).jpc = m.jpc := rfl
@[simp] theorem M.setInk_mode (m : M) (f) : (m.setInk f).mode = m.mode := rfl
@[simp] theorem M.setInk_ink (m : M) (f) : (m.setInk f).ink = f m.ink := rfl
@[simp] theorem M.setInk_prf (m : M) (f) : (m.setInk f).prf = m.prf := rfl
@[simp] theorem M.setInk_quo (m : M) (f) : (m.setInk f).quo = m.quo := rfl
@[simp] theorem M.setInk_isl (m : M) (f) : (m.setInk f).isl = m.isl := rfl
@[simp] theorem M.setInk_proof (m : M) (f) : (m.setInk f).proof = m.proof := rfl
@[simp] theorem M.setInk_err (m : M) (f) : (m.setInk f).err = m.err := rfl
@[simp] theorem M.setInk_acc (m : M) (f) : (m.setInk f).acc = m.acc := rfl
@[simp] theorem M.setInk_fences (m : M) (f) : (m.setInk f).fences = m.fences := rfl
@[simp] theorem M.setInk_settings (m : M) (f) : (m.setInk f).settings = m.settings := rfl
@[simp] theorem M.setInk_out (m : M) (f) : (m.setInk f).out = m.out := rfl
@[simp] theorem M.setInk_flits (m : M) (f) : (m.setInk f).flits = m.flits := rfl

@[simp] theorem M.setPrf_now (m : M) (f) : (m.setPrf f).now = m.now := rfl
@[simp] theorem M.setPrf_pins (m : M) (f) : (m.setPrf f).pins = m.pins := rfl
@[simp] theorem M.setPrf_boot (m : M) (f) : (m.setPrf f).boot = m.boot := rfl
@[simp] theorem M.setPrf_regs (m : M) (f) : (m.setPrf f).regs = m.regs := rfl
@[simp] theorem M.setPrf_ctrs (m : M) (f) : (m.setPrf f).ctrs = m.ctrs := rfl
@[simp] theorem M.setPrf_free (m : M) (f) : (m.setPrf f).free = m.free := rfl
@[simp] theorem M.setPrf_coh (m : M) (f) : (m.setPrf f).coh = m.coh := rfl
@[simp] theorem M.setPrf_ports (m : M) (f) : (m.setPrf f).ports = m.ports := rfl
@[simp] theorem M.setPrf_mems (m : M) (f) : (m.setPrf f).mems = m.mems := rfl
@[simp] theorem M.setPrf_links (m : M) (f) : (m.setPrf f).links = m.links := rfl
@[simp] theorem M.setPrf_dacs (m : M) (f) : (m.setPrf f).dacs = m.dacs := rfl
@[simp] theorem M.setPrf_array (m : M) (f) : (m.setPrf f).array = m.array := rfl
@[simp] theorem M.setPrf_twin (m : M) (f) : (m.setPrf f).twin = m.twin := rfl
@[simp] theorem M.setPrf_mir (m : M) (f) : (m.setPrf f).mir = m.mir := rfl
@[simp] theorem M.setPrf_jpc (m : M) (f) : (m.setPrf f).jpc = m.jpc := rfl
@[simp] theorem M.setPrf_mode (m : M) (f) : (m.setPrf f).mode = m.mode := rfl
@[simp] theorem M.setPrf_ink (m : M) (f) : (m.setPrf f).ink = m.ink := rfl
@[simp] theorem M.setPrf_prf (m : M) (f) : (m.setPrf f).prf = f m.prf := rfl
@[simp] theorem M.setPrf_quo (m : M) (f) : (m.setPrf f).quo = m.quo := rfl
@[simp] theorem M.setPrf_isl (m : M) (f) : (m.setPrf f).isl = m.isl := rfl
@[simp] theorem M.setPrf_proof (m : M) (f) : (m.setPrf f).proof = m.proof := rfl
@[simp] theorem M.setPrf_err (m : M) (f) : (m.setPrf f).err = m.err := rfl
@[simp] theorem M.setPrf_acc (m : M) (f) : (m.setPrf f).acc = m.acc := rfl
@[simp] theorem M.setPrf_fences (m : M) (f) : (m.setPrf f).fences = m.fences := rfl
@[simp] theorem M.setPrf_settings (m : M) (f) : (m.setPrf f).settings = m.settings := rfl
@[simp] theorem M.setPrf_out (m : M) (f) : (m.setPrf f).out = m.out := rfl
@[simp] theorem M.setPrf_flits (m : M) (f) : (m.setPrf f).flits = m.flits := rfl

@[simp] theorem M.setProof_now (m : M) (f) : (m.setProof f).now = m.now := rfl
@[simp] theorem M.setProof_pins (m : M) (f) : (m.setProof f).pins = m.pins := rfl
@[simp] theorem M.setProof_boot (m : M) (f) : (m.setProof f).boot = m.boot := rfl
@[simp] theorem M.setProof_regs (m : M) (f) : (m.setProof f).regs = m.regs := rfl
@[simp] theorem M.setProof_ctrs (m : M) (f) : (m.setProof f).ctrs = m.ctrs := rfl
@[simp] theorem M.setProof_free (m : M) (f) : (m.setProof f).free = m.free := rfl
@[simp] theorem M.setProof_coh (m : M) (f) : (m.setProof f).coh = m.coh := rfl
@[simp] theorem M.setProof_ports (m : M) (f) : (m.setProof f).ports = m.ports := rfl
@[simp] theorem M.setProof_mems (m : M) (f) : (m.setProof f).mems = m.mems := rfl
@[simp] theorem M.setProof_links (m : M) (f) : (m.setProof f).links = m.links := rfl
@[simp] theorem M.setProof_dacs (m : M) (f) : (m.setProof f).dacs = m.dacs := rfl
@[simp] theorem M.setProof_array (m : M) (f) : (m.setProof f).array = m.array := rfl
@[simp] theorem M.setProof_twin (m : M) (f) : (m.setProof f).twin = m.twin := rfl
@[simp] theorem M.setProof_mir (m : M) (f) : (m.setProof f).mir = m.mir := rfl
@[simp] theorem M.setProof_jpc (m : M) (f) : (m.setProof f).jpc = m.jpc := rfl
@[simp] theorem M.setProof_mode (m : M) (f) : (m.setProof f).mode = m.mode := rfl
@[simp] theorem M.setProof_ink (m : M) (f) : (m.setProof f).ink = m.ink := rfl
@[simp] theorem M.setProof_prf (m : M) (f) : (m.setProof f).prf = m.prf := rfl
@[simp] theorem M.setProof_quo (m : M) (f) : (m.setProof f).quo = m.quo := rfl
@[simp] theorem M.setProof_isl (m : M) (f) : (m.setProof f).isl = m.isl := rfl
@[simp] theorem M.setProof_proof (m : M) (f) : (m.setProof f).proof = f m.proof := rfl
@[simp] theorem M.setProof_err (m : M) (f) : (m.setProof f).err = m.err := rfl
@[simp] theorem M.setProof_acc (m : M) (f) : (m.setProof f).acc = m.acc := rfl
@[simp] theorem M.setProof_fences (m : M) (f) : (m.setProof f).fences = m.fences := rfl
@[simp] theorem M.setProof_settings (m : M) (f) : (m.setProof f).settings = m.settings := rfl
@[simp] theorem M.setProof_out (m : M) (f) : (m.setProof f).out = m.out := rfl
@[simp] theorem M.setProof_flits (m : M) (f) : (m.setProof f).flits = m.flits := rfl

@[simp] theorem M.setIsl_now (m : M) (f) : (m.setIsl f).now = m.now := rfl
@[simp] theorem M.setIsl_pins (m : M) (f) : (m.setIsl f).pins = m.pins := rfl
@[simp] theorem M.setIsl_boot (m : M) (f) : (m.setIsl f).boot = m.boot := rfl
@[simp] theorem M.setIsl_regs (m : M) (f) : (m.setIsl f).regs = m.regs := rfl
@[simp] theorem M.setIsl_ctrs (m : M) (f) : (m.setIsl f).ctrs = m.ctrs := rfl
@[simp] theorem M.setIsl_free (m : M) (f) : (m.setIsl f).free = m.free := rfl
@[simp] theorem M.setIsl_coh (m : M) (f) : (m.setIsl f).coh = m.coh := rfl
@[simp] theorem M.setIsl_ports (m : M) (f) : (m.setIsl f).ports = m.ports := rfl
@[simp] theorem M.setIsl_mems (m : M) (f) : (m.setIsl f).mems = m.mems := rfl
@[simp] theorem M.setIsl_links (m : M) (f) : (m.setIsl f).links = m.links := rfl
@[simp] theorem M.setIsl_dacs (m : M) (f) : (m.setIsl f).dacs = m.dacs := rfl
@[simp] theorem M.setIsl_array (m : M) (f) : (m.setIsl f).array = m.array := rfl
@[simp] theorem M.setIsl_twin (m : M) (f) : (m.setIsl f).twin = m.twin := rfl
@[simp] theorem M.setIsl_mir (m : M) (f) : (m.setIsl f).mir = m.mir := rfl
@[simp] theorem M.setIsl_jpc (m : M) (f) : (m.setIsl f).jpc = m.jpc := rfl
@[simp] theorem M.setIsl_mode (m : M) (f) : (m.setIsl f).mode = m.mode := rfl
@[simp] theorem M.setIsl_ink (m : M) (f) : (m.setIsl f).ink = m.ink := rfl
@[simp] theorem M.setIsl_prf (m : M) (f) : (m.setIsl f).prf = m.prf := rfl
@[simp] theorem M.setIsl_quo (m : M) (f) : (m.setIsl f).quo = m.quo := rfl
@[simp] theorem M.setIsl_isl (m : M) (f) : (m.setIsl f).isl = f m.isl := rfl
@[simp] theorem M.setIsl_proof (m : M) (f) : (m.setIsl f).proof = m.proof := rfl
@[simp] theorem M.setIsl_err (m : M) (f) : (m.setIsl f).err = m.err := rfl
@[simp] theorem M.setIsl_acc (m : M) (f) : (m.setIsl f).acc = m.acc := rfl
@[simp] theorem M.setIsl_fences (m : M) (f) : (m.setIsl f).fences = m.fences := rfl
@[simp] theorem M.setIsl_settings (m : M) (f) : (m.setIsl f).settings = m.settings := rfl
@[simp] theorem M.setIsl_out (m : M) (f) : (m.setIsl f).out = m.out := rfl
@[simp] theorem M.setIsl_flits (m : M) (f) : (m.setIsl f).flits = m.flits := rfl

@[simp] theorem M.setBoot_now (m : M) (f) : (m.setBoot f).now = m.now := rfl
@[simp] theorem M.setBoot_pins (m : M) (f) : (m.setBoot f).pins = m.pins := rfl
@[simp] theorem M.setBoot_boot (m : M) (f) : (m.setBoot f).boot = f m.boot := rfl
@[simp] theorem M.setBoot_regs (m : M) (f) : (m.setBoot f).regs = m.regs := rfl
@[simp] theorem M.setBoot_ctrs (m : M) (f) : (m.setBoot f).ctrs = m.ctrs := rfl
@[simp] theorem M.setBoot_free (m : M) (f) : (m.setBoot f).free = m.free := rfl
@[simp] theorem M.setBoot_coh (m : M) (f) : (m.setBoot f).coh = m.coh := rfl
@[simp] theorem M.setBoot_ports (m : M) (f) : (m.setBoot f).ports = m.ports := rfl
@[simp] theorem M.setBoot_mems (m : M) (f) : (m.setBoot f).mems = m.mems := rfl
@[simp] theorem M.setBoot_links (m : M) (f) : (m.setBoot f).links = m.links := rfl
@[simp] theorem M.setBoot_dacs (m : M) (f) : (m.setBoot f).dacs = m.dacs := rfl
@[simp] theorem M.setBoot_array (m : M) (f) : (m.setBoot f).array = m.array := rfl
@[simp] theorem M.setBoot_twin (m : M) (f) : (m.setBoot f).twin = m.twin := rfl
@[simp] theorem M.setBoot_mir (m : M) (f) : (m.setBoot f).mir = m.mir := rfl
@[simp] theorem M.setBoot_jpc (m : M) (f) : (m.setBoot f).jpc = m.jpc := rfl
@[simp] theorem M.setBoot_mode (m : M) (f) : (m.setBoot f).mode = m.mode := rfl
@[simp] theorem M.setBoot_ink (m : M) (f) : (m.setBoot f).ink = m.ink := rfl
@[simp] theorem M.setBoot_prf (m : M) (f) : (m.setBoot f).prf = m.prf := rfl
@[simp] theorem M.setBoot_quo (m : M) (f) : (m.setBoot f).quo = m.quo := rfl
@[simp] theorem M.setBoot_isl (m : M) (f) : (m.setBoot f).isl = m.isl := rfl
@[simp] theorem M.setBoot_proof (m : M) (f) : (m.setBoot f).proof = m.proof := rfl
@[simp] theorem M.setBoot_err (m : M) (f) : (m.setBoot f).err = m.err := rfl
@[simp] theorem M.setBoot_acc (m : M) (f) : (m.setBoot f).acc = m.acc := rfl
@[simp] theorem M.setBoot_fences (m : M) (f) : (m.setBoot f).fences = m.fences := rfl
@[simp] theorem M.setBoot_settings (m : M) (f) : (m.setBoot f).settings = m.settings := rfl
@[simp] theorem M.setBoot_out (m : M) (f) : (m.setBoot f).out = m.out := rfl
@[simp] theorem M.setBoot_flits (m : M) (f) : (m.setBoot f).flits = m.flits := rfl

@[simp] theorem M.setPins_now (m : M) (f) : (m.setPins f).now = m.now := rfl
@[simp] theorem M.setPins_pins (m : M) (f) : (m.setPins f).pins = f m.pins := rfl
@[simp] theorem M.setPins_boot (m : M) (f) : (m.setPins f).boot = m.boot := rfl
@[simp] theorem M.setPins_regs (m : M) (f) : (m.setPins f).regs = m.regs := rfl
@[simp] theorem M.setPins_ctrs (m : M) (f) : (m.setPins f).ctrs = m.ctrs := rfl
@[simp] theorem M.setPins_free (m : M) (f) : (m.setPins f).free = m.free := rfl
@[simp] theorem M.setPins_coh (m : M) (f) : (m.setPins f).coh = m.coh := rfl
@[simp] theorem M.setPins_ports (m : M) (f) : (m.setPins f).ports = m.ports := rfl
@[simp] theorem M.setPins_mems (m : M) (f) : (m.setPins f).mems = m.mems := rfl
@[simp] theorem M.setPins_links (m : M) (f) : (m.setPins f).links = m.links := rfl
@[simp] theorem M.setPins_dacs (m : M) (f) : (m.setPins f).dacs = m.dacs := rfl
@[simp] theorem M.setPins_array (m : M) (f) : (m.setPins f).array = m.array := rfl
@[simp] theorem M.setPins_twin (m : M) (f) : (m.setPins f).twin = m.twin := rfl
@[simp] theorem M.setPins_mir (m : M) (f) : (m.setPins f).mir = m.mir := rfl
@[simp] theorem M.setPins_jpc (m : M) (f) : (m.setPins f).jpc = m.jpc := rfl
@[simp] theorem M.setPins_mode (m : M) (f) : (m.setPins f).mode = m.mode := rfl
@[simp] theorem M.setPins_ink (m : M) (f) : (m.setPins f).ink = m.ink := rfl
@[simp] theorem M.setPins_prf (m : M) (f) : (m.setPins f).prf = m.prf := rfl
@[simp] theorem M.setPins_quo (m : M) (f) : (m.setPins f).quo = m.quo := rfl
@[simp] theorem M.setPins_isl (m : M) (f) : (m.setPins f).isl = m.isl := rfl
@[simp] theorem M.setPins_proof (m : M) (f) : (m.setPins f).proof = m.proof := rfl
@[simp] theorem M.setPins_err (m : M) (f) : (m.setPins f).err = m.err := rfl
@[simp] theorem M.setPins_acc (m : M) (f) : (m.setPins f).acc = m.acc := rfl
@[simp] theorem M.setPins_fences (m : M) (f) : (m.setPins f).fences = m.fences := rfl
@[simp] theorem M.setPins_settings (m : M) (f) : (m.setPins f).settings = m.settings := rfl
@[simp] theorem M.setPins_out (m : M) (f) : (m.setPins f).out = m.out := rfl
@[simp] theorem M.setPins_flits (m : M) (f) : (m.setPins f).flits = m.flits := rfl

@[simp] theorem M.setMode_now (m : M) (f) : (m.setMode f).now = m.now := rfl
@[simp] theorem M.setMode_pins (m : M) (f) : (m.setMode f).pins = m.pins := rfl
@[simp] theorem M.setMode_boot (m : M) (f) : (m.setMode f).boot = m.boot := rfl
@[simp] theorem M.setMode_regs (m : M) (f) : (m.setMode f).regs = m.regs := rfl
@[simp] theorem M.setMode_ctrs (m : M) (f) : (m.setMode f).ctrs = m.ctrs := rfl
@[simp] theorem M.setMode_free (m : M) (f) : (m.setMode f).free = m.free := rfl
@[simp] theorem M.setMode_coh (m : M) (f) : (m.setMode f).coh = m.coh := rfl
@[simp] theorem M.setMode_ports (m : M) (f) : (m.setMode f).ports = m.ports := rfl
@[simp] theorem M.setMode_mems (m : M) (f) : (m.setMode f).mems = m.mems := rfl
@[simp] theorem M.setMode_links (m : M) (f) : (m.setMode f).links = m.links := rfl
@[simp] theorem M.setMode_dacs (m : M) (f) : (m.setMode f).dacs = m.dacs := rfl
@[simp] theorem M.setMode_array (m : M) (f) : (m.setMode f).array = m.array := rfl
@[simp] theorem M.setMode_twin (m : M) (f) : (m.setMode f).twin = m.twin := rfl
@[simp] theorem M.setMode_mir (m : M) (f) : (m.setMode f).mir = m.mir := rfl
@[simp] theorem M.setMode_jpc (m : M) (f) : (m.setMode f).jpc = m.jpc := rfl
@[simp] theorem M.setMode_mode (m : M) (f) : (m.setMode f).mode = f m.mode := rfl
@[simp] theorem M.setMode_ink (m : M) (f) : (m.setMode f).ink = m.ink := rfl
@[simp] theorem M.setMode_prf (m : M) (f) : (m.setMode f).prf = m.prf := rfl
@[simp] theorem M.setMode_quo (m : M) (f) : (m.setMode f).quo = m.quo := rfl
@[simp] theorem M.setMode_isl (m : M) (f) : (m.setMode f).isl = m.isl := rfl
@[simp] theorem M.setMode_proof (m : M) (f) : (m.setMode f).proof = m.proof := rfl
@[simp] theorem M.setMode_err (m : M) (f) : (m.setMode f).err = m.err := rfl
@[simp] theorem M.setMode_acc (m : M) (f) : (m.setMode f).acc = m.acc := rfl
@[simp] theorem M.setMode_fences (m : M) (f) : (m.setMode f).fences = m.fences := rfl
@[simp] theorem M.setMode_settings (m : M) (f) : (m.setMode f).settings = m.settings := rfl
@[simp] theorem M.setMode_out (m : M) (f) : (m.setMode f).out = m.out := rfl
@[simp] theorem M.setMode_flits (m : M) (f) : (m.setMode f).flits = m.flits := rfl

@[simp] theorem M.setAcc_now (m : M) (f) : (m.setAcc f).now = m.now := rfl
@[simp] theorem M.setAcc_pins (m : M) (f) : (m.setAcc f).pins = m.pins := rfl
@[simp] theorem M.setAcc_boot (m : M) (f) : (m.setAcc f).boot = m.boot := rfl
@[simp] theorem M.setAcc_regs (m : M) (f) : (m.setAcc f).regs = m.regs := rfl
@[simp] theorem M.setAcc_ctrs (m : M) (f) : (m.setAcc f).ctrs = m.ctrs := rfl
@[simp] theorem M.setAcc_free (m : M) (f) : (m.setAcc f).free = m.free := rfl
@[simp] theorem M.setAcc_coh (m : M) (f) : (m.setAcc f).coh = m.coh := rfl
@[simp] theorem M.setAcc_ports (m : M) (f) : (m.setAcc f).ports = m.ports := rfl
@[simp] theorem M.setAcc_mems (m : M) (f) : (m.setAcc f).mems = m.mems := rfl
@[simp] theorem M.setAcc_links (m : M) (f) : (m.setAcc f).links = m.links := rfl
@[simp] theorem M.setAcc_dacs (m : M) (f) : (m.setAcc f).dacs = m.dacs := rfl
@[simp] theorem M.setAcc_array (m : M) (f) : (m.setAcc f).array = m.array := rfl
@[simp] theorem M.setAcc_twin (m : M) (f) : (m.setAcc f).twin = m.twin := rfl
@[simp] theorem M.setAcc_mir (m : M) (f) : (m.setAcc f).mir = m.mir := rfl
@[simp] theorem M.setAcc_jpc (m : M) (f) : (m.setAcc f).jpc = m.jpc := rfl
@[simp] theorem M.setAcc_mode (m : M) (f) : (m.setAcc f).mode = m.mode := rfl
@[simp] theorem M.setAcc_ink (m : M) (f) : (m.setAcc f).ink = m.ink := rfl
@[simp] theorem M.setAcc_prf (m : M) (f) : (m.setAcc f).prf = m.prf := rfl
@[simp] theorem M.setAcc_quo (m : M) (f) : (m.setAcc f).quo = m.quo := rfl
@[simp] theorem M.setAcc_isl (m : M) (f) : (m.setAcc f).isl = m.isl := rfl
@[simp] theorem M.setAcc_proof (m : M) (f) : (m.setAcc f).proof = m.proof := rfl
@[simp] theorem M.setAcc_err (m : M) (f) : (m.setAcc f).err = m.err := rfl
@[simp] theorem M.setAcc_acc (m : M) (f) : (m.setAcc f).acc = f m.acc := rfl
@[simp] theorem M.setAcc_fences (m : M) (f) : (m.setAcc f).fences = m.fences := rfl
@[simp] theorem M.setAcc_settings (m : M) (f) : (m.setAcc f).settings = m.settings := rfl
@[simp] theorem M.setAcc_out (m : M) (f) : (m.setAcc f).out = m.out := rfl
@[simp] theorem M.setAcc_flits (m : M) (f) : (m.setAcc f).flits = m.flits := rfl

@[simp] theorem wr_now (e : Env) (m : M) (w : Nat) (v : Word) : (wr e m w v).now = m.now := rfl
@[simp] theorem wr_pins (e : Env) (m : M) (w : Nat) (v : Word) : (wr e m w v).pins = m.pins := rfl
@[simp] theorem wr_boot (e : Env) (m : M) (w : Nat) (v : Word) : (wr e m w v).boot = m.boot := rfl
@[simp] theorem wr_regs (e : Env) (m : M) (w : Nat) (v : Word) : (wr e m w v).regs = Tab.put (regReset e.fuse) m.regs w v := rfl
@[simp] theorem wr_ctrs (e : Env) (m : M) (w : Nat) (v : Word) : (wr e m w v).ctrs = m.ctrs := rfl
@[simp] theorem wr_free (e : Env) (m : M) (w : Nat) (v : Word) : (wr e m w v).free = m.free := rfl
@[simp] theorem wr_coh (e : Env) (m : M) (w : Nat) (v : Word) : (wr e m w v).coh = m.coh := rfl
@[simp] theorem wr_ports (e : Env) (m : M) (w : Nat) (v : Word) : (wr e m w v).ports = m.ports := rfl
@[simp] theorem wr_mems (e : Env) (m : M) (w : Nat) (v : Word) : (wr e m w v).mems = m.mems := rfl
@[simp] theorem wr_links (e : Env) (m : M) (w : Nat) (v : Word) : (wr e m w v).links = m.links := rfl
@[simp] theorem wr_dacs (e : Env) (m : M) (w : Nat) (v : Word) : (wr e m w v).dacs = m.dacs := rfl
@[simp] theorem wr_array (e : Env) (m : M) (w : Nat) (v : Word) : (wr e m w v).array = m.array := rfl
@[simp] theorem wr_twin (e : Env) (m : M) (w : Nat) (v : Word) : (wr e m w v).twin = m.twin := rfl
@[simp] theorem wr_mir (e : Env) (m : M) (w : Nat) (v : Word) : (wr e m w v).mir = m.mir := rfl
@[simp] theorem wr_jpc (e : Env) (m : M) (w : Nat) (v : Word) : (wr e m w v).jpc = m.jpc := rfl
@[simp] theorem wr_mode (e : Env) (m : M) (w : Nat) (v : Word) : (wr e m w v).mode = m.mode := rfl
@[simp] theorem wr_ink (e : Env) (m : M) (w : Nat) (v : Word) : (wr e m w v).ink = m.ink := rfl
@[simp] theorem wr_prf (e : Env) (m : M) (w : Nat) (v : Word) : (wr e m w v).prf = m.prf := rfl
@[simp] theorem wr_quo (e : Env) (m : M) (w : Nat) (v : Word) : (wr e m w v).quo = m.quo := rfl
@[simp] theorem wr_isl (e : Env) (m : M) (w : Nat) (v : Word) : (wr e m w v).isl = m.isl := rfl
@[simp] theorem wr_proof (e : Env) (m : M) (w : Nat) (v : Word) : (wr e m w v).proof = m.proof := rfl
@[simp] theorem wr_err (e : Env) (m : M) (w : Nat) (v : Word) : (wr e m w v).err = m.err := rfl
@[simp] theorem wr_acc (e : Env) (m : M) (w : Nat) (v : Word) : (wr e m w v).acc = m.acc := rfl
@[simp] theorem wr_fences (e : Env) (m : M) (w : Nat) (v : Word) : (wr e m w v).fences = m.fences := rfl
@[simp] theorem wr_settings (e : Env) (m : M) (w : Nat) (v : Word) : (wr e m w v).settings = m.settings := rfl
@[simp] theorem wr_out (e : Env) (m : M) (w : Nat) (v : Word) : (wr e m w v).out = m.out := rfl
@[simp] theorem wr_flits (e : Env) (m : M) (w : Nat) (v : Word) : (wr e m w v).flits = m.flits := rfl

@[simp] theorem M.setLink_now (m : M) (l : Lnk) (x : LinkSt) : (m.setLink l x).now = m.now := rfl
@[simp] theorem M.setLink_pins (m : M) (l : Lnk) (x : LinkSt) : (m.setLink l x).pins = m.pins := rfl
@[simp] theorem M.setLink_boot (m : M) (l : Lnk) (x : LinkSt) : (m.setLink l x).boot = m.boot := rfl
@[simp] theorem M.setLink_regs (m : M) (l : Lnk) (x : LinkSt) : (m.setLink l x).regs = m.regs := rfl
@[simp] theorem M.setLink_ctrs (m : M) (l : Lnk) (x : LinkSt) : (m.setLink l x).ctrs = m.ctrs := rfl
@[simp] theorem M.setLink_free (m : M) (l : Lnk) (x : LinkSt) : (m.setLink l x).free = m.free := rfl
@[simp] theorem M.setLink_coh (m : M) (l : Lnk) (x : LinkSt) : (m.setLink l x).coh = m.coh := rfl
@[simp] theorem M.setLink_ports (m : M) (l : Lnk) (x : LinkSt) : (m.setLink l x).ports = m.ports := rfl
@[simp] theorem M.setLink_mems (m : M) (l : Lnk) (x : LinkSt) : (m.setLink l x).mems = m.mems := rfl
@[simp] theorem M.setLink_links (m : M) (l : Lnk) (x : LinkSt) : (m.setLink l x).links = Tab.put (fun _ => .reset) m.links l.n x := rfl
@[simp] theorem M.setLink_dacs (m : M) (l : Lnk) (x : LinkSt) : (m.setLink l x).dacs = m.dacs := rfl
@[simp] theorem M.setLink_array (m : M) (l : Lnk) (x : LinkSt) : (m.setLink l x).array = m.array := rfl
@[simp] theorem M.setLink_twin (m : M) (l : Lnk) (x : LinkSt) : (m.setLink l x).twin = m.twin := rfl
@[simp] theorem M.setLink_mir (m : M) (l : Lnk) (x : LinkSt) : (m.setLink l x).mir = m.mir := rfl
@[simp] theorem M.setLink_jpc (m : M) (l : Lnk) (x : LinkSt) : (m.setLink l x).jpc = m.jpc := rfl
@[simp] theorem M.setLink_mode (m : M) (l : Lnk) (x : LinkSt) : (m.setLink l x).mode = m.mode := rfl
@[simp] theorem M.setLink_ink (m : M) (l : Lnk) (x : LinkSt) : (m.setLink l x).ink = m.ink := rfl
@[simp] theorem M.setLink_prf (m : M) (l : Lnk) (x : LinkSt) : (m.setLink l x).prf = m.prf := rfl
@[simp] theorem M.setLink_quo (m : M) (l : Lnk) (x : LinkSt) : (m.setLink l x).quo = m.quo := rfl
@[simp] theorem M.setLink_isl (m : M) (l : Lnk) (x : LinkSt) : (m.setLink l x).isl = m.isl := rfl
@[simp] theorem M.setLink_proof (m : M) (l : Lnk) (x : LinkSt) : (m.setLink l x).proof = m.proof := rfl
@[simp] theorem M.setLink_err (m : M) (l : Lnk) (x : LinkSt) : (m.setLink l x).err = m.err := rfl
@[simp] theorem M.setLink_acc (m : M) (l : Lnk) (x : LinkSt) : (m.setLink l x).acc = m.acc := rfl
@[simp] theorem M.setLink_fences (m : M) (l : Lnk) (x : LinkSt) : (m.setLink l x).fences = m.fences := rfl
@[simp] theorem M.setLink_settings (m : M) (l : Lnk) (x : LinkSt) : (m.setLink l x).settings = m.settings := rfl
@[simp] theorem M.setLink_out (m : M) (l : Lnk) (x : LinkSt) : (m.setLink l x).out = m.out := rfl
@[simp] theorem M.setLink_flits (m : M) (l : Lnk) (x : LinkSt) : (m.setLink l x).flits = m.flits := rfl

@[simp] theorem M.setPort_now (m : M) (p : HPort) (x : PortSt) : (m.setPort p x).now = m.now := rfl
@[simp] theorem M.setPort_pins (m : M) (p : HPort) (x : PortSt) : (m.setPort p x).pins = m.pins := rfl
@[simp] theorem M.setPort_boot (m : M) (p : HPort) (x : PortSt) : (m.setPort p x).boot = m.boot := rfl
@[simp] theorem M.setPort_regs (m : M) (p : HPort) (x : PortSt) : (m.setPort p x).regs = m.regs := rfl
@[simp] theorem M.setPort_ctrs (m : M) (p : HPort) (x : PortSt) : (m.setPort p x).ctrs = m.ctrs := rfl
@[simp] theorem M.setPort_free (m : M) (p : HPort) (x : PortSt) : (m.setPort p x).free = m.free := rfl
@[simp] theorem M.setPort_coh (m : M) (p : HPort) (x : PortSt) : (m.setPort p x).coh = m.coh := rfl
@[simp] theorem M.setPort_ports (m : M) (p : HPort) (x : PortSt) : (m.setPort p x).ports = Tab.put (fun _ => .reset) m.ports p.n x := rfl
@[simp] theorem M.setPort_mems (m : M) (p : HPort) (x : PortSt) : (m.setPort p x).mems = m.mems := rfl
@[simp] theorem M.setPort_links (m : M) (p : HPort) (x : PortSt) : (m.setPort p x).links = m.links := rfl
@[simp] theorem M.setPort_dacs (m : M) (p : HPort) (x : PortSt) : (m.setPort p x).dacs = m.dacs := rfl
@[simp] theorem M.setPort_array (m : M) (p : HPort) (x : PortSt) : (m.setPort p x).array = m.array := rfl
@[simp] theorem M.setPort_twin (m : M) (p : HPort) (x : PortSt) : (m.setPort p x).twin = m.twin := rfl
@[simp] theorem M.setPort_mir (m : M) (p : HPort) (x : PortSt) : (m.setPort p x).mir = m.mir := rfl
@[simp] theorem M.setPort_jpc (m : M) (p : HPort) (x : PortSt) : (m.setPort p x).jpc = m.jpc := rfl
@[simp] theorem M.setPort_mode (m : M) (p : HPort) (x : PortSt) : (m.setPort p x).mode = m.mode := rfl
@[simp] theorem M.setPort_ink (m : M) (p : HPort) (x : PortSt) : (m.setPort p x).ink = m.ink := rfl
@[simp] theorem M.setPort_prf (m : M) (p : HPort) (x : PortSt) : (m.setPort p x).prf = m.prf := rfl
@[simp] theorem M.setPort_quo (m : M) (p : HPort) (x : PortSt) : (m.setPort p x).quo = m.quo := rfl
@[simp] theorem M.setPort_isl (m : M) (p : HPort) (x : PortSt) : (m.setPort p x).isl = m.isl := rfl
@[simp] theorem M.setPort_proof (m : M) (p : HPort) (x : PortSt) : (m.setPort p x).proof = m.proof := rfl
@[simp] theorem M.setPort_err (m : M) (p : HPort) (x : PortSt) : (m.setPort p x).err = m.err := rfl
@[simp] theorem M.setPort_acc (m : M) (p : HPort) (x : PortSt) : (m.setPort p x).acc = m.acc := rfl
@[simp] theorem M.setPort_fences (m : M) (p : HPort) (x : PortSt) : (m.setPort p x).fences = m.fences := rfl
@[simp] theorem M.setPort_settings (m : M) (p : HPort) (x : PortSt) : (m.setPort p x).settings = m.settings := rfl
@[simp] theorem M.setPort_out (m : M) (p : HPort) (x : PortSt) : (m.setPort p x).out = m.out := rfl
@[simp] theorem M.setPort_flits (m : M) (p : HPort) (x : PortSt) : (m.setPort p x).flits = m.flits := rfl

@[simp] theorem M.setMem_now (m : M) (p : MPort) (x : MemSt) : (m.setMem p x).now = m.now := rfl
@[simp] theorem M.setMem_pins (m : M) (p : MPort) (x : MemSt) : (m.setMem p x).pins = m.pins := rfl
@[simp] theorem M.setMem_boot (m : M) (p : MPort) (x : MemSt) : (m.setMem p x).boot = m.boot := rfl
@[simp] theorem M.setMem_regs (m : M) (p : MPort) (x : MemSt) : (m.setMem p x).regs = m.regs := rfl
@[simp] theorem M.setMem_ctrs (m : M) (p : MPort) (x : MemSt) : (m.setMem p x).ctrs = m.ctrs := rfl
@[simp] theorem M.setMem_free (m : M) (p : MPort) (x : MemSt) : (m.setMem p x).free = m.free := rfl
@[simp] theorem M.setMem_coh (m : M) (p : MPort) (x : MemSt) : (m.setMem p x).coh = m.coh := rfl
@[simp] theorem M.setMem_ports (m : M) (p : MPort) (x : MemSt) : (m.setMem p x).ports = m.ports := rfl
@[simp] theorem M.setMem_mems (m : M) (p : MPort) (x : MemSt) : (m.setMem p x).mems = Tab.put (fun _ => .reset) m.mems p.n x := rfl
@[simp] theorem M.setMem_links (m : M) (p : MPort) (x : MemSt) : (m.setMem p x).links = m.links := rfl
@[simp] theorem M.setMem_dacs (m : M) (p : MPort) (x : MemSt) : (m.setMem p x).dacs = m.dacs := rfl
@[simp] theorem M.setMem_array (m : M) (p : MPort) (x : MemSt) : (m.setMem p x).array = m.array := rfl
@[simp] theorem M.setMem_twin (m : M) (p : MPort) (x : MemSt) : (m.setMem p x).twin = m.twin := rfl
@[simp] theorem M.setMem_mir (m : M) (p : MPort) (x : MemSt) : (m.setMem p x).mir = m.mir := rfl
@[simp] theorem M.setMem_jpc (m : M) (p : MPort) (x : MemSt) : (m.setMem p x).jpc = m.jpc := rfl
@[simp] theorem M.setMem_mode (m : M) (p : MPort) (x : MemSt) : (m.setMem p x).mode = m.mode := rfl
@[simp] theorem M.setMem_ink (m : M) (p : MPort) (x : MemSt) : (m.setMem p x).ink = m.ink := rfl
@[simp] theorem M.setMem_prf (m : M) (p : MPort) (x : MemSt) : (m.setMem p x).prf = m.prf := rfl
@[simp] theorem M.setMem_quo (m : M) (p : MPort) (x : MemSt) : (m.setMem p x).quo = m.quo := rfl
@[simp] theorem M.setMem_isl (m : M) (p : MPort) (x : MemSt) : (m.setMem p x).isl = m.isl := rfl
@[simp] theorem M.setMem_proof (m : M) (p : MPort) (x : MemSt) : (m.setMem p x).proof = m.proof := rfl
@[simp] theorem M.setMem_err (m : M) (p : MPort) (x : MemSt) : (m.setMem p x).err = m.err := rfl
@[simp] theorem M.setMem_acc (m : M) (p : MPort) (x : MemSt) : (m.setMem p x).acc = m.acc := rfl
@[simp] theorem M.setMem_fences (m : M) (p : MPort) (x : MemSt) : (m.setMem p x).fences = m.fences := rfl
@[simp] theorem M.setMem_settings (m : M) (p : MPort) (x : MemSt) : (m.setMem p x).settings = m.settings := rfl
@[simp] theorem M.setMem_out (m : M) (p : MPort) (x : MemSt) : (m.setMem p x).out = m.out := rfl
@[simp] theorem M.setMem_flits (m : M) (p : MPort) (x : MemSt) : (m.setMem p x).flits = m.flits := rfl

@[simp] theorem M.setDac_now (m : M) (d : Nat) (x : DacSt) : (m.setDac d x).now = m.now := rfl
@[simp] theorem M.setDac_pins (m : M) (d : Nat) (x : DacSt) : (m.setDac d x).pins = m.pins := rfl
@[simp] theorem M.setDac_boot (m : M) (d : Nat) (x : DacSt) : (m.setDac d x).boot = m.boot := rfl
@[simp] theorem M.setDac_regs (m : M) (d : Nat) (x : DacSt) : (m.setDac d x).regs = m.regs := rfl
@[simp] theorem M.setDac_ctrs (m : M) (d : Nat) (x : DacSt) : (m.setDac d x).ctrs = m.ctrs := rfl
@[simp] theorem M.setDac_free (m : M) (d : Nat) (x : DacSt) : (m.setDac d x).free = m.free := rfl
@[simp] theorem M.setDac_coh (m : M) (d : Nat) (x : DacSt) : (m.setDac d x).coh = m.coh := rfl
@[simp] theorem M.setDac_ports (m : M) (d : Nat) (x : DacSt) : (m.setDac d x).ports = m.ports := rfl
@[simp] theorem M.setDac_mems (m : M) (d : Nat) (x : DacSt) : (m.setDac d x).mems = m.mems := rfl
@[simp] theorem M.setDac_links (m : M) (d : Nat) (x : DacSt) : (m.setDac d x).links = m.links := rfl
@[simp] theorem M.setDac_dacs (m : M) (d : Nat) (x : DacSt) : (m.setDac d x).dacs = Tab.put (fun _ => .reset) m.dacs d x := rfl
@[simp] theorem M.setDac_array (m : M) (d : Nat) (x : DacSt) : (m.setDac d x).array = m.array := rfl
@[simp] theorem M.setDac_twin (m : M) (d : Nat) (x : DacSt) : (m.setDac d x).twin = m.twin := rfl
@[simp] theorem M.setDac_mir (m : M) (d : Nat) (x : DacSt) : (m.setDac d x).mir = m.mir := rfl
@[simp] theorem M.setDac_jpc (m : M) (d : Nat) (x : DacSt) : (m.setDac d x).jpc = m.jpc := rfl
@[simp] theorem M.setDac_mode (m : M) (d : Nat) (x : DacSt) : (m.setDac d x).mode = m.mode := rfl
@[simp] theorem M.setDac_ink (m : M) (d : Nat) (x : DacSt) : (m.setDac d x).ink = m.ink := rfl
@[simp] theorem M.setDac_prf (m : M) (d : Nat) (x : DacSt) : (m.setDac d x).prf = m.prf := rfl
@[simp] theorem M.setDac_quo (m : M) (d : Nat) (x : DacSt) : (m.setDac d x).quo = m.quo := rfl
@[simp] theorem M.setDac_isl (m : M) (d : Nat) (x : DacSt) : (m.setDac d x).isl = m.isl := rfl
@[simp] theorem M.setDac_proof (m : M) (d : Nat) (x : DacSt) : (m.setDac d x).proof = m.proof := rfl
@[simp] theorem M.setDac_err (m : M) (d : Nat) (x : DacSt) : (m.setDac d x).err = m.err := rfl
@[simp] theorem M.setDac_acc (m : M) (d : Nat) (x : DacSt) : (m.setDac d x).acc = m.acc := rfl
@[simp] theorem M.setDac_fences (m : M) (d : Nat) (x : DacSt) : (m.setDac d x).fences = m.fences := rfl
@[simp] theorem M.setDac_settings (m : M) (d : Nat) (x : DacSt) : (m.setDac d x).settings = m.settings := rfl
@[simp] theorem M.setDac_out (m : M) (d : Nat) (x : DacSt) : (m.setDac d x).out = m.out := rfl
@[simp] theorem M.setDac_flits (m : M) (d : Nat) (x : DacSt) : (m.setDac d x).flits = m.flits := rfl

@[simp] theorem M.setQuoin_now (m : M) (q : Nat) (x : Quoin) : (m.setQuoin q x).now = m.now := rfl
@[simp] theorem M.setQuoin_pins (m : M) (q : Nat) (x : Quoin) : (m.setQuoin q x).pins = m.pins := rfl
@[simp] theorem M.setQuoin_boot (m : M) (q : Nat) (x : Quoin) : (m.setQuoin q x).boot = m.boot := rfl
@[simp] theorem M.setQuoin_regs (m : M) (q : Nat) (x : Quoin) : (m.setQuoin q x).regs = m.regs := rfl
@[simp] theorem M.setQuoin_ctrs (m : M) (q : Nat) (x : Quoin) : (m.setQuoin q x).ctrs = m.ctrs := rfl
@[simp] theorem M.setQuoin_free (m : M) (q : Nat) (x : Quoin) : (m.setQuoin q x).free = m.free := rfl
@[simp] theorem M.setQuoin_coh (m : M) (q : Nat) (x : Quoin) : (m.setQuoin q x).coh = m.coh := rfl
@[simp] theorem M.setQuoin_ports (m : M) (q : Nat) (x : Quoin) : (m.setQuoin q x).ports = m.ports := rfl
@[simp] theorem M.setQuoin_mems (m : M) (q : Nat) (x : Quoin) : (m.setQuoin q x).mems = m.mems := rfl
@[simp] theorem M.setQuoin_links (m : M) (q : Nat) (x : Quoin) : (m.setQuoin q x).links = m.links := rfl
@[simp] theorem M.setQuoin_dacs (m : M) (q : Nat) (x : Quoin) : (m.setQuoin q x).dacs = m.dacs := rfl
@[simp] theorem M.setQuoin_array (m : M) (q : Nat) (x : Quoin) : (m.setQuoin q x).array = m.array := rfl
@[simp] theorem M.setQuoin_twin (m : M) (q : Nat) (x : Quoin) : (m.setQuoin q x).twin = m.twin := rfl
@[simp] theorem M.setQuoin_mir (m : M) (q : Nat) (x : Quoin) : (m.setQuoin q x).mir = m.mir := rfl
@[simp] theorem M.setQuoin_jpc (m : M) (q : Nat) (x : Quoin) : (m.setQuoin q x).jpc = m.jpc := rfl
@[simp] theorem M.setQuoin_mode (m : M) (q : Nat) (x : Quoin) : (m.setQuoin q x).mode = m.mode := rfl
@[simp] theorem M.setQuoin_ink (m : M) (q : Nat) (x : Quoin) : (m.setQuoin q x).ink = m.ink := rfl
@[simp] theorem M.setQuoin_prf (m : M) (q : Nat) (x : Quoin) : (m.setQuoin q x).prf = m.prf := rfl
@[simp] theorem M.setQuoin_quo (m : M) (q : Nat) (x : Quoin) : (m.setQuoin q x).quo = Tab.put (fun _ => .free) m.quo q x := rfl
@[simp] theorem M.setQuoin_isl (m : M) (q : Nat) (x : Quoin) : (m.setQuoin q x).isl = m.isl := rfl
@[simp] theorem M.setQuoin_proof (m : M) (q : Nat) (x : Quoin) : (m.setQuoin q x).proof = m.proof := rfl
@[simp] theorem M.setQuoin_err (m : M) (q : Nat) (x : Quoin) : (m.setQuoin q x).err = m.err := rfl
@[simp] theorem M.setQuoin_acc (m : M) (q : Nat) (x : Quoin) : (m.setQuoin q x).acc = m.acc := rfl
@[simp] theorem M.setQuoin_fences (m : M) (q : Nat) (x : Quoin) : (m.setQuoin q x).fences = m.fences := rfl
@[simp] theorem M.setQuoin_settings (m : M) (q : Nat) (x : Quoin) : (m.setQuoin q x).settings = m.settings := rfl
@[simp] theorem M.setQuoin_out (m : M) (q : Nat) (x : Quoin) : (m.setQuoin q x).out = m.out := rfl
@[simp] theorem M.setQuoin_flits (m : M) (q : Nat) (x : Quoin) : (m.setQuoin q x).flits = m.flits := rfl

@[simp] theorem M.setCtr_now (m : M) (i k : Nat) (v : BitVec 48) : (m.setCtr i k v).now = m.now := rfl
@[simp] theorem M.setCtr_pins (m : M) (i k : Nat) (v : BitVec 48) : (m.setCtr i k v).pins = m.pins := rfl
@[simp] theorem M.setCtr_boot (m : M) (i k : Nat) (v : BitVec 48) : (m.setCtr i k v).boot = m.boot := rfl
@[simp] theorem M.setCtr_regs (m : M) (i k : Nat) (v : BitVec 48) : (m.setCtr i k v).regs = m.regs := rfl
@[simp] theorem M.setCtr_ctrs (m : M) (i k : Nat) (v : BitVec 48) : (m.setCtr i k v).ctrs = Tab.put (fun _ => 0) m.ctrs (i * 16 + k) v := rfl
@[simp] theorem M.setCtr_free (m : M) (i k : Nat) (v : BitVec 48) : (m.setCtr i k v).free = m.free := rfl
@[simp] theorem M.setCtr_coh (m : M) (i k : Nat) (v : BitVec 48) : (m.setCtr i k v).coh = m.coh := rfl
@[simp] theorem M.setCtr_ports (m : M) (i k : Nat) (v : BitVec 48) : (m.setCtr i k v).ports = m.ports := rfl
@[simp] theorem M.setCtr_mems (m : M) (i k : Nat) (v : BitVec 48) : (m.setCtr i k v).mems = m.mems := rfl
@[simp] theorem M.setCtr_links (m : M) (i k : Nat) (v : BitVec 48) : (m.setCtr i k v).links = m.links := rfl
@[simp] theorem M.setCtr_dacs (m : M) (i k : Nat) (v : BitVec 48) : (m.setCtr i k v).dacs = m.dacs := rfl
@[simp] theorem M.setCtr_array (m : M) (i k : Nat) (v : BitVec 48) : (m.setCtr i k v).array = m.array := rfl
@[simp] theorem M.setCtr_twin (m : M) (i k : Nat) (v : BitVec 48) : (m.setCtr i k v).twin = m.twin := rfl
@[simp] theorem M.setCtr_mir (m : M) (i k : Nat) (v : BitVec 48) : (m.setCtr i k v).mir = m.mir := rfl
@[simp] theorem M.setCtr_jpc (m : M) (i k : Nat) (v : BitVec 48) : (m.setCtr i k v).jpc = m.jpc := rfl
@[simp] theorem M.setCtr_mode (m : M) (i k : Nat) (v : BitVec 48) : (m.setCtr i k v).mode = m.mode := rfl
@[simp] theorem M.setCtr_ink (m : M) (i k : Nat) (v : BitVec 48) : (m.setCtr i k v).ink = m.ink := rfl
@[simp] theorem M.setCtr_prf (m : M) (i k : Nat) (v : BitVec 48) : (m.setCtr i k v).prf = m.prf := rfl
@[simp] theorem M.setCtr_quo (m : M) (i k : Nat) (v : BitVec 48) : (m.setCtr i k v).quo = m.quo := rfl
@[simp] theorem M.setCtr_isl (m : M) (i k : Nat) (v : BitVec 48) : (m.setCtr i k v).isl = m.isl := rfl
@[simp] theorem M.setCtr_proof (m : M) (i k : Nat) (v : BitVec 48) : (m.setCtr i k v).proof = m.proof := rfl
@[simp] theorem M.setCtr_err (m : M) (i k : Nat) (v : BitVec 48) : (m.setCtr i k v).err = m.err := rfl
@[simp] theorem M.setCtr_acc (m : M) (i k : Nat) (v : BitVec 48) : (m.setCtr i k v).acc = m.acc := rfl
@[simp] theorem M.setCtr_fences (m : M) (i k : Nat) (v : BitVec 48) : (m.setCtr i k v).fences = m.fences := rfl
@[simp] theorem M.setCtr_settings (m : M) (i k : Nat) (v : BitVec 48) : (m.setCtr i k v).settings = m.settings := rfl
@[simp] theorem M.setCtr_out (m : M) (i k : Nat) (v : BitVec 48) : (m.setCtr i k v).out = m.out := rfl
@[simp] theorem M.setCtr_flits (m : M) (i k : Nat) (v : BitVec 48) : (m.setCtr i k v).flits = m.flits := rfl

end Sys2Proof.Machine
end

