-- ==== Sys2Proof/Laws/Mail.lean ====
section
/-!
SUPPORT. What a mailbox command does once it is taken, and what a command row does on a running device.
-/

namespace Sys2Proof.Machine

open Sys2Proof

/-! ### The forms of a command -/

theorem run_live {s : State} (h : Live s) (f : Env → M → M) : run s f = .next (s.withM (f s.env s.m)) := by
  simp [run, h.2, State.withM, State.env]
theorem runCfg_live {s : State} (h : Live s) (f : Fuses → Cfg → M → Cfg × M) :
    runCfg s f = .next { s.withM (f s.fuse s.cfg s.m).2 with cfg := (f s.fuse s.cfg s.m).1 } := by
  simp [runCfg, h.2, State.withM]
theorem runLive_live {s : State} (h : Live s) (f : Env → M → M) :
    run s (fun e m => whenAlive m (f e)) = .next (s.withM (f s.env s.m)) := by
  simp [run_live h, whenAlive, h.1]
theorem act_live {s : State} (h : Live s) (f : Env → M → M) : act s f = .next (s.after (f s.env s.m)) := by
  simp [act, runLive_live h fun e m => fin e (f e m), State.after]

/-! ### The firmware takes a descriptor -/

theorem served_of_taken {s : State} {d : Desc} {c : Cmd} (h : Taken s d c.any c.early c.recovery) : served s.m d c = true := by
  obtain ⟨-, hf, -, hr, hr', hp, ht, ho, -, -⟩ := h
  have h3 : (!(d.flags.getLsbD 0 && s.m.jpc.accepted.any fun a => a.ring == d.ring)) = true := by
    cases hb : d.flags.getLsbD 0
    · simp
    · simp [ho hb]
  obtain ⟨r, hx⟩ := Option.isSome_iff_exists.mp hr
  obtain ⟨h1, h2⟩ := hr' r hx
  have h4 : (r != 39 || s.m.jpc.dbgWait.isEmpty) = true := by
    by_cases h39 : r = 39
    · simp [h39, h2 h39]
    · simp [h39]
  unfold served
  rw [h3, hx, hp, ht]
  simp only [h4]
  rcases hf with ⟨hf, h | ⟨h, h'⟩⟩ | ⟨hf, -, h | h⟩ <;> simp [*]

/-- A command that is refused changes nothing but its rings: its response carries the status and the block code. -/
theorem command_refused {s : State} {d : Desc} {c : Cmd} {f : M → M × BitVec 448} (h : Taken s d c.any c.early c.recovery)
    {st b : Nat} (hr : refusal (s.took d) d c (privileged s.m d) = some (st, b)) :
    command s.env s.m d c f = postRsp s.env (s.took d) d c.opcode st (privileged s.m d) (refusalResult (s.took d) c st b) := by
  have hs : served s.m d c = true := served_of_taken h
  have e : takeDesc s.m d = s.took d := rfl
  unfold command
  simp only [hs, e, hr]
  rfl

theorem refusal_of_taken {s : State} {d : Desc} {c : Cmd} (m : M) (hm : m.jpc.fw = s.m.jpc.fw)
    (h : Taken s d c.any c.early c.recovery) (ha : c.absent = false) (hb : c.badArg = false) (hk : c.blocks = [])
    (hg : c.guard = false) (hu : c.busy = false) : refusal m d c (privileged s.m d) = none := by
  obtain ⟨-, hf, hp, -, -, -, -, h1, h2⟩ := h
  have h3 : (m.jpc.fw == .recovery && !c.recovery) = false := by
    rw [hm]; rcases hf with ⟨hf, -⟩ | ⟨hf, hr, -⟩ <;> simp [*]
  have h4 : (!c.any && !privileged s.m d) = false := by rcases hp with h | h <;> simp [h]
  simp [refusal, h3, h4, ha, hb, hk, hg, hu, h1, h2]

@[simp] theorem takeDesc_fw (m : M) (d : Desc) : (takeDesc m d).jpc.fw = m.jpc.fw := by
  unfold takeDesc passTurn; dsimp only; split <;> split <;> rfl
@[simp] theorem takeDesc_nextId (m : M) (d : Desc) : (takeDesc m d).jpc.nextId = m.jpc.nextId := by
  unfold takeDesc passTurn; dsimp only; split <;> split <;> rfl
@[simp] theorem takeDesc_accepted (m : M) (d : Desc) : (takeDesc m d).jpc.accepted = m.jpc.accepted := by
  unfold takeDesc passTurn; dsimp only; split <;> split <;> rfl
@[simp] theorem takeDesc_now (m : M) (d : Desc) : (takeDesc m d).now = m.now := by
  unfold takeDesc passTurn; dsimp only; split <;> split <;> rfl

/-! Taking a descriptor moves the head of its ring and changes nothing else. -/

@[simp] theorem took_now (s : State) (d : Desc) : (s.took d).now = s.m.now := by
  unfold State.took takeDesc passTurn; dsimp only; split <;> split <;> rfl
@[simp] theorem took_pins (s : State) (d : Desc) : (s.took d).pins = s.m.pins := by
  unfold State.took takeDesc passTurn; dsimp only; split <;> split <;> rfl
@[simp] theorem took_boot (s : State) (d : Desc) : (s.took d).boot = s.m.boot := by
  unfold State.took takeDesc passTurn; dsimp only; split <;> split <;> rfl
@[simp] theorem took_regs (s : State) (d : Desc) : (s.took d).regs = s.m.regs := by
  unfold State.took takeDesc passTurn; dsimp only; split <;> split <;> rfl
@[simp] theorem took_ctrs (s : State) (d : Desc) : (s.took d).ctrs = s.m.ctrs := by
  unfold State.took takeDesc passTurn; dsimp only; split <;> split <;> rfl
@[simp] theorem took_free (s : State) (d : Desc) : (s.took d).free = s.m.free := by
  unfold State.took takeDesc passTurn; dsimp only; split <;> split <;> rfl
@[simp] theorem took_coh (s : State) (d : Desc) : (s.took d).coh = s.m.coh := by
  unfold State.took takeDesc passTurn; dsimp only; split <;> split <;> rfl
@[simp] theorem took_ports (s : State) (d : Desc) : (s.took d).ports = s.m.ports := by
  unfold State.took takeDesc passTurn; dsimp only; split <;> split <;> rfl
@[simp] theorem took_mems (s : State) (d : Desc) : (s.took d).mems = s.m.mems := by
  unfold State.took takeDesc passTurn; dsimp only; split <;> split <;> rfl
@[simp] theorem took_links (s : State) (d : Desc) : (s.took d).links = s.m.links := by
  unfold State.took takeDesc passTurn; dsimp only; split <;> split <;> rfl
@[simp] theorem took_dacs (s : State) (d : Desc) : (s.took d).dacs = s.m.dacs := by
  unfold State.took takeDesc passTurn; dsimp only; split <;> split <;> rfl
@[simp] theorem took_array (s : State) (d : Desc) : (s.took d).array = s.m.array := by
  unfold State.took takeDesc passTurn; dsimp only; split <;> split <;> rfl
@[simp] theorem took_twin (s : State) (d : Desc) : (s.took d).twin = s.m.twin := by
  unfold State.took takeDesc passTurn; dsimp only; split <;> split <;> rfl
@[simp] theorem took_mir (s : State) (d : Desc) : (s.took d).mir = s.m.mir := by
  unfold State.took takeDesc passTurn; dsimp only; split <;> split <;> rfl
@[simp] theorem took_mode (s : State) (d : Desc) : (s.took d).mode = s.m.mode := by
  unfold State.took takeDesc passTurn; dsimp only; split <;> split <;> rfl
@[simp] theorem took_ink (s : State) (d : Desc) : (s.took d).ink = s.m.ink := by
  unfold State.took takeDesc passTurn; dsimp only; split <;> split <;> rfl
@[simp] theorem took_prf (s : State) (d : Desc) : (s.took d).prf = s.m.prf := by
  unfold State.took takeDesc passTurn; dsimp only; split <;> split <;> rfl
@[simp] theorem took_quo (s : State) (d : Desc) : (s.took d).quo = s.m.quo := by
  unfold State.took takeDesc passTurn; dsimp only; split <;> split <;> rfl
@[simp] theorem took_isl (s : State) (d : Desc) : (s.took d).isl = s.m.isl := by
  unfold State.took takeDesc passTurn; dsimp only; split <;> split <;> rfl
@[simp] theorem took_proof (s : State) (d : Desc) : (s.took d).proof = s.m.proof := by
  unfold State.took takeDesc passTurn; dsimp only; split <;> split <;> rfl
@[simp] theorem took_err (s : State) (d : Desc) : (s.took d).err = s.m.err := by
  unfold State.took takeDesc passTurn; dsimp only; split <;> split <;> rfl
@[simp] theorem took_acc (s : State) (d : Desc) : (s.took d).acc = s.m.acc := by
  unfold State.took takeDesc passTurn; dsimp only; split <;> split <;> rfl
@[simp] theorem took_fences (s : State) (d : Desc) : (s.took d).fences = s.m.fences := by
  unfold State.took takeDesc passTurn; dsimp only; split <;> split <;> rfl
@[simp] theorem took_settings (s : State) (d : Desc) : (s.took d).settings = s.m.settings := by
  unfold State.took takeDesc passTurn; dsimp only; split <;> split <;> rfl
@[simp] theorem took_out (s : State) (d : Desc) : (s.took d).out = s.m.out := by
  unfold State.took takeDesc passTurn; dsimp only; split <;> split <;> rfl
@[simp] theorem took_jpc_tails (s : State) (d : Desc) : (s.took d).jpc.tails = s.m.jpc.tails := by
  unfold State.took takeDesc passTurn; dsimp only; split <;> split <;> rfl
@[simp] theorem took_jpc_store (s : State) (d : Desc) : (s.took d).jpc.store = s.m.jpc.store := by
  unfold State.took takeDesc passTurn; dsimp only; split <;> split <;> rfl
@[simp] theorem took_jpc_evtSeq (s : State) (d : Desc) : (s.took d).jpc.evtSeq = s.m.jpc.evtSeq := by
  unfold State.took takeDesc passTurn; dsimp only; split <;> split <;> rfl
@[simp] theorem took_jpc_evtDrops (s : State) (d : Desc) : (s.took d).jpc.evtDrops = s.m.jpc.evtDrops := by
  unfold State.took takeDesc passTurn; dsimp only; split <;> split <;> rfl
@[simp] theorem took_jpc_ringDrops (s : State) (d : Desc) : (s.took d).jpc.ringDrops = s.m.jpc.ringDrops := by
  unfold State.took takeDesc passTurn; dsimp only; split <;> split <;> rfl
@[simp] theorem took_jpc_accepted (s : State) (d : Desc) : (s.took d).jpc.accepted = s.m.jpc.accepted := by
  unfold State.took takeDesc passTurn; dsimp only; split <;> split <;> rfl
@[simp] theorem took_jpc_nextId (s : State) (d : Desc) : (s.took d).jpc.nextId = s.m.jpc.nextId := by
  unfold State.took takeDesc passTurn; dsimp only; split <;> split <;> rfl
@[simp] theorem took_jpc_fw (s : State) (d : Desc) : (s.took d).jpc.fw = s.m.jpc.fw := by
  unfold State.took takeDesc passTurn; dsimp only; split <;> split <;> rfl
@[simp] theorem took_jpc_slot (s : State) (d : Desc) : (s.took d).jpc.slot = s.m.jpc.slot := by
  unfold State.took takeDesc passTurn; dsimp only; split <;> split <;> rfl
@[simp] theorem took_jpc_sigChecked (s : State) (d : Desc) : (s.took d).jpc.sigChecked = s.m.jpc.sigChecked := by
  unfold State.took takeDesc passTurn; dsimp only; split <;> split <;> rfl
@[simp] theorem took_jpc_failCause (s : State) (d : Desc) : (s.took d).jpc.failCause = s.m.jpc.failCause := by
  unfold State.took takeDesc passTurn; dsimp only; split <;> split <;> rfl
@[simp] theorem took_jpc_restartCause (s : State) (d : Desc) : (s.took d).jpc.restartCause = s.m.jpc.restartCause := by
  unfold State.took takeDesc passTurn; dsimp only; split <;> split <;> rfl
@[simp] theorem took_jpc_restarts (s : State) (d : Desc) : (s.took d).jpc.restarts = s.m.jpc.restarts := by
  unfold State.took takeDesc passTurn; dsimp only; split <;> split <;> rfl
@[simp] theorem took_jpc_faultTicks (s : State) (d : Desc) : (s.took d).jpc.faultTicks = s.m.jpc.faultTicks := by
  unfold State.took takeDesc passTurn; dsimp only; split <;> split <;> rfl
@[simp] theorem took_jpc_hostHalt (s : State) (d : Desc) : (s.took d).jpc.hostHalt = s.m.jpc.hostHalt := by
  unfold State.took takeDesc passTurn; dsimp only; split <;> split <;> rfl
@[simp] theorem took_jpc_clockHalt (s : State) (d : Desc) : (s.took d).jpc.clockHalt = s.m.jpc.clockHalt := by
  unfold State.took takeDesc passTurn; dsimp only; split <;> split <;> rfl
@[simp] theorem took_jpc_wdogTick (s : State) (d : Desc) : (s.took d).jpc.wdogTick = s.m.jpc.wdogTick := by
  unfold State.took takeDesc passTurn; dsimp only; split <;> split <;> rfl
@[simp] theorem took_jpc_version (s : State) (d : Desc) : (s.took d).jpc.version = s.m.jpc.version := by
  unfold State.took takeDesc passTurn; dsimp only; split <;> split <;> rfl
@[simp] theorem took_jpc_versions (s : State) (d : Desc) : (s.took d).jpc.versions = s.m.jpc.versions := by
  unfold State.took takeDesc passTurn; dsimp only; split <;> split <;> rfl
@[simp] theorem took_jpc_trialRun (s : State) (d : Desc) : (s.took d).jpc.trialRun = s.m.jpc.trialRun := by
  unfold State.took takeDesc passTurn; dsimp only; split <;> split <;> rfl
@[simp] theorem took_jpc_session (s : State) (d : Desc) : (s.took d).jpc.session = s.m.jpc.session := by
  unfold State.took takeDesc passTurn; dsimp only; split <;> split <;> rfl
@[simp] theorem took_jpc_flash (s : State) (d : Desc) : (s.took d).jpc.flash = s.m.jpc.flash := by
  unfold State.took takeDesc passTurn; dsimp only; split <;> split <;> rfl
@[simp] theorem took_jpc_record (s : State) (d : Desc) : (s.took d).jpc.record = s.m.jpc.record := by
  unfold State.took takeDesc passTurn; dsimp only; split <;> split <;> rfl
@[simp] theorem took_jpc_recordCopy (s : State) (d : Desc) : (s.took d).jpc.recordCopy = s.m.jpc.recordCopy := by
  unfold State.took takeDesc passTurn; dsimp only; split <;> split <;> rfl
@[simp] theorem took_jpc_daRecord (s : State) (d : Desc) : (s.took d).jpc.daRecord = s.m.jpc.daRecord := by
  unfold State.took takeDesc passTurn; dsimp only; split <;> split <;> rfl
@[simp] theorem took_jpc_pairAborted (s : State) (d : Desc) : (s.took d).jpc.pairAborted = s.m.jpc.pairAborted := by
  unfold State.took takeDesc passTurn; dsimp only; split <;> split <;> rfl
@[simp] theorem took_jpc_dbgWait (s : State) (d : Desc) : (s.took d).jpc.dbgWait = s.m.jpc.dbgWait := by
  unfold State.took takeDesc passTurn; dsimp only; split <;> split <;> rfl

/-- A command that completes at once: its effect, and the response OK with its results. -/
theorem command_taken {s : State} {d : Desc} {c : Cmd} (h : Taken s d c.any c.early c.recovery) (ha : c.absent = false)
    (hb : c.badArg = false) (hk : c.blocks = []) (hg : c.guard = false) (hu : c.busy = false) (f : M → M × BitVec 448) :
    command s.env s.m d c f = s.ok d c.opcode (f (s.took d)).1 (f (s.took d)).2 := by
  simp [command, served_of_taken h, refusal_of_taken (takeDesc s.m d) (takeDesc_fw ..) h ha hb hk hg hu, State.ok, State.took]

/-- The checks of a settings command pass. -/
theorem settings_taken {s : State} {d : Desc} {c : Cmd} (h : Taken s d c.any c.early c.recovery) (ha : c.absent = false)
    (hb : c.badArg = false) (hk : c.blocks = []) (hg : c.guard = false) (hu : c.busy = false) :
    (served s.m d c && (refusal s.m d c (privileged s.m d)).isNone) = true := by
  simp [served_of_taken h, refusal_of_taken s.m rfl h ha hb hk hg hu]

/-- A command that ends later: it is accepted, and its work starts. -/
theorem commandLater_taken {s : State} {d : Desc} {c : Cmd} (h : Taken s d c.any c.early c.recovery) (ha : c.absent = false)
    (hb : c.badArg = false) (hk : c.blocks = []) (hg : c.guard = false) (hu : c.busy = false)
    (hn : s.m.jpc.accepted.length < 16) (limit base top : Nat) (res : M → BitVec 448) (f : M → Nat → M) :
    commandLater s.env s.m d c limit base top res f
      = f (s.accepted d c.opcode limit base top (res (s.booked d c.opcode limit base top))) s.jobId := by
  have hr : refusal (takeDesc s.m d) d { c with busy := c.busy || decide (16 ≤ (takeDesc s.m d).jpc.accepted.length) }
      (privileged s.m d) = none := by
    have : (16 ≤ (takeDesc s.m d).jpc.accepted.length) = False := by simp; omega
    simp only [this]
    exact refusal_of_taken (c := { c with busy := c.busy || decide False }) (takeDesc s.m d) (takeDesc_fw ..) h ha hb hk hg (by simp [hu])
  have hbk : s.booked d c.opcode limit base top = (takeDesc s.m d).setJpc fun j => { j with
      accepted := j.accepted ++ [s.job d c.opcode limit base top], nextId := s.jobId + 1 } := by
    simp [State.booked, State.took, M.setJpc]
  simp only [commandLater, served_of_taken h, Bool.not_true, Bool.false_eq_true, if_false]
  rw [hr]
  simp only [State.accepted, hbk]
  simp [State.job, State.jobId]

end Sys2Proof.Machine
end

