-- ==== Sys2Proof/Laws/Access.lean ====
section
/-!
SUPPORT. What a register access does once it reaches its register.
-/

namespace Sys2Proof.Machine

open Sys2Proof

theorem runSettings_live {s : State} (h : Live s) (f : Env → M → M) : runSettings s f = .next (s.applied (f s.env s.m)) := by
  unfold runSettings
  rw [runCfg_live h]
  simp [h.1, State.applied, State.withM, State.env]

/-- An access that reaches its register wakes the register's island and then reads or writes it; a write returns 0. -/
theorem access_reached {s : State} {a : Acc} {w : Nat} {wr : Bool} (h : Reaches s a w wr) (v : Word) :
    (access s.env s.m a (regAddr w) wr v).1 =
      returning (if wr then writeReg s.env (s.woken w) a w v else (readDirect s.env (s.woken w) a w).1)
        (if wr then 0 else (readDirect s.env (s.woken w) a w).2) := by
  obtain ⟨-, -, h3, h4, h5, h6⟩ := h
  have h5' : regAbsent s.env.fuse.variant w = false := h5
  simp only [access, h3, h4, h5', inIsland]
  rcases h6 with h6 | ⟨h6, h7⟩
  · simp only [h6]; cases wr <;> simp [State.woken, h6, returning]
  · simp only [h6, h7]; cases wr <;> simp [State.woken, returning]

theorem accessRow_reached {s : State} {a : Acc} {w : Nat} {wr : Bool} (h : Reaches s a w wr) (v : Word) :
    accessRow s a (regAddr w) wr v = .next (s.applied
      (returning (if wr then writeReg s.env (s.woken w) a w v else (readDirect s.env (s.woken w) a w).1)
        (if wr then 0 else (readDirect s.env (s.woken w) a w).2))) := by
  unfold accessRow
  rw [runSettings_live h.1]
  simp only [h.2.1, if_true]
  rw [access_reached h]

theorem writeRow_reached {s : State} {a : Acc} {w : Nat} (h : Reaches s a w true) (v : Word) :
    writeRow s a (regAddr w) v = .next (s.applied (fin s.env (returning (writeReg s.env (s.woken w) a w v) 0))) := by
  unfold writeRow
  rw [runSettings_live h.1]
  simp only [h.2.1, if_true]
  rw [access_reached h]
  simp

end Sys2Proof.Machine
end

