-- ==== Sys2Proof/Laws/Table.lean ====
section
/-!
SUPPORT. The laws of the sparse tables: what a key reads as after each operation, and that every operation keeps the canonical form,
in which equal tables are equal data.
-/

namespace Sys2Proof.Machine

open Sys2Proof

@[simp] theorem Tab.get_nil {α : Type} (d : Nat → α) (k : Nat) : Tab.get d ([] : Tab α) k = d k := rfl

variable {α : Type} [DecidableEq α] {d : Nat → α} {t u : Tab α} {b k j : Nat} {v : α}

@[simp] theorem Tab.wf_nil : Tab.wf d ([] : Tab α) = true := rfl

/-- A table that starts above `b` also starts above any lower bound. -/
theorem Tab.wfFrom_mono (h : j ≤ b) (ht : Tab.wfFrom d b t = true) : Tab.wfFrom d j t = true := by
  cases t with
  | nil => rfl
  | cons x t => simp only [Tab.wfFrom, Bool.and_eq_true, decide_eq_true_eq] at ht ⊢; exact ⟨⟨by omega, ht.1.2⟩, ht.2⟩

/-- A key below the first possible one reads as its default. -/
theorem Tab.get_below (ht : Tab.wfFrom d b t = true) (h : k < b) : Tab.get d t k = d k := by
  induction t generalizing b with
  | nil => rfl
  | cons x t ih =>
    simp only [Tab.wfFrom, Bool.and_eq_true, decide_eq_true_eq] at ht
    have h1 : k ≠ x.1 := by omega
    simp only [Tab.get, h1, if_false]
    exact ih ht.2 (by omega)

/-! ### Dropping keys -/

omit [DecidableEq α] in
/-- What a key reads as after keys are dropped. -/
theorem Tab.get_drop {p : Nat → Bool} : Tab.get d (Tab.drop p t) j = if p j = true then d j else Tab.get d t j := by
  induction t with
  | nil => simp [Tab.drop]
  | cons x t ih =>
    obtain ⟨i, w⟩ := x
    have hx : Tab.drop p ((i, w) :: t) = if p i = true then Tab.drop p t else (i, w) :: Tab.drop p t := by
      cases hp : p i <;> simp [Tab.drop, List.filter, hp]
    rw [hx]
    by_cases hp : p i = true
    · rw [if_pos hp, ih]
      by_cases e : j = i
      · subst e; simp [hp]
      · simp [Tab.get, e]
    · rw [if_neg hp]
      by_cases e : j = i
      · subst e; simp [Tab.get, hp]
      · simp [Tab.get, e, ih]
/-- Dropping keys keeps the canonical form above a bound. -/
theorem Tab.wfFrom_drop {p : Nat → Bool} (ht : Tab.wfFrom d b t = true) : Tab.wfFrom d b (Tab.drop p t) = true := by
  induction t generalizing b with
  | nil => rfl
  | cons x t ih =>
    obtain ⟨j, w⟩ := x
    simp only [Tab.wfFrom, Bool.and_eq_true, decide_eq_true_eq] at ht
    obtain ⟨⟨hb, hw⟩, ht⟩ := ht
    cases hp : p j
    · have := ih ht; simp only [Tab.drop] at this ⊢; simp [List.filter, hp, Tab.wfFrom, hb, hw, this]
    · have := Tab.wfFrom_mono (j := b) (by omega) (ih ht); simp only [Tab.drop] at this ⊢; simpa [List.filter, hp] using this
/-- Dropping keys keeps the canonical form. -/
theorem Tab.wf_drop {p : Nat → Bool} (ht : Tab.wf d t = true) : Tab.wf d (Tab.drop p t) = true := Tab.wfFrom_drop ht

/-! ### Writes -/

/-- A write keeps the canonical form above a bound. -/
theorem Tab.wfFrom_put (ht : Tab.wfFrom d b t = true) (h : b ≤ k) : Tab.wfFrom d b (Tab.put d t k v) = true := by
  induction t generalizing b with
  | nil => by_cases e : v = d k <;> simp [Tab.put, e, Tab.wfFrom, h]
  | cons x t ih =>
    obtain ⟨j, w⟩ := x
    simp only [Tab.wfFrom, Bool.and_eq_true, decide_eq_true_eq] at ht
    obtain ⟨⟨hb, hw⟩, ht⟩ := ht
    have hd := Tab.wfFrom_drop (p := (· == k)) ht
    simp only [Tab.put]
    split
    · subst k
      split
      · exact Tab.wfFrom_mono (by omega) hd
      · simp [Tab.wfFrom, *]
    · split
      · split
        · simp [Tab.wfFrom, hb, hw, hd]
        · rename_i hlt _
          have : k + 1 ≤ j := by omega
          simp [Tab.wfFrom, *]
      · have : j + 1 ≤ k := by omega
        simp [Tab.wfFrom, hb, hw, ih ht this]
/-- A write keeps the canonical form. -/
theorem Tab.wf_put (ht : Tab.wf d t = true) : Tab.wf d (Tab.put d t k v) = true := Tab.wfFrom_put ht (Nat.zero_le k)
/-- A change of one key keeps the canonical form. -/
theorem Tab.wf_upd {f : α → α} (ht : Tab.wf d t = true) : Tab.wf d (Tab.upd d t k f) = true := Tab.wf_put ht

/-- What a key reads as after a write; this holds of every table, canonical or not. -/
theorem Tab.get_put : Tab.get d (Tab.put d t k v) j = if j = k then v else Tab.get d t j := by
  induction t with
  | nil => by_cases e : v = d k <;> by_cases e' : j = k <;> simp [Tab.put, Tab.get, e, e']
  | cons x t ih =>
    obtain ⟨i, w⟩ := x
    simp only [Tab.put]
    by_cases e : j = k
    · subst e
      split
      · subst i; split <;> simp [Tab.get, Tab.get_drop, *]
      · split
        · split <;> simp [Tab.get, Tab.get_drop, *]
        · simp [Tab.get, *]
    · split
      · subst i; split <;> simp [Tab.get, Tab.get_drop, e]
      · split
        · split <;> simp [Tab.get, Tab.get_drop, e]
        · simp [Tab.get, ih, e]
theorem Tab.get_put_same : Tab.get d (Tab.put d t k v) k = v := by simp [Tab.get_put]
theorem Tab.get_put_other (h : j ≠ k) : Tab.get d (Tab.put d t k v) j = Tab.get d t j := by simp [Tab.get_put, h]
/-- What a key reads as after the change of one key. -/
theorem Tab.get_upd {f : α → α} : Tab.get d (Tab.upd d t k f) j = if j = k then f (Tab.get d t k) else Tab.get d t j := Tab.get_put

/-! ### Changes of every listed value -/

/-- A change of every listed value keeps the canonical form above a bound. -/
theorem Tab.wfFrom_mapVals {f : Nat → α → α} (ht : Tab.wfFrom d b t = true) : Tab.wfFrom d b (Tab.mapVals d f t) = true := by
  induction t generalizing b with
  | nil => rfl
  | cons x t ih =>
    obtain ⟨j, w⟩ := x
    simp only [Tab.wfFrom, Bool.and_eq_true, decide_eq_true_eq] at ht
    obtain ⟨⟨hb, hw⟩, ht⟩ := ht
    simp only [Tab.mapVals]
    split
    · exact Tab.wfFrom_mono (by omega) (Tab.wfFrom_drop (ih ht))
    · simp [Tab.wfFrom, ih ht, *]
/-- A change of every listed value keeps the canonical form. -/
theorem Tab.wf_mapVals {f : Nat → α → α} (ht : Tab.wf d t = true) : Tab.wf d (Tab.mapVals d f t) = true :=
  Tab.wfFrom_mapVals ht
/-- What a key reads as after such a change, where it leaves the defaults as they are. -/
theorem Tab.get_mapVals {f : Nat → α → α} (h : ∀ k, f k (d k) = d k) : Tab.get d (Tab.mapVals d f t) j = f j (Tab.get d t j) := by
  induction t with
  | nil => simp [Tab.mapVals, h]
  | cons x t ih =>
    obtain ⟨i, w⟩ := x
    simp only [Tab.mapVals]
    by_cases e : j = i
    · subst e; split <;> simp [Tab.get, Tab.get_drop, *]
    · split <;> simp [Tab.get, Tab.get_drop, ih, e]

/-! ### Equality -/

/-- Canonical tables above a bound that read alike are the same list. -/
theorem Tab.ext_from (ht : Tab.wfFrom d b t = true) (hu : Tab.wfFrom d b u = true) (h : ∀ k, Tab.get d t k = Tab.get d u k) :
    t = u := by
  induction t generalizing b u with
  | nil =>
    cases u with
    | nil => rfl
    | cons y u =>
      obtain ⟨i, w⟩ := y
      simp only [Tab.wfFrom, Bool.and_eq_true, decide_eq_true_eq] at hu
      have := h i; simp [Tab.get] at this
      exact absurd this.symm hu.1.2
  | cons x t ih =>
    obtain ⟨j, v⟩ := x
    simp only [Tab.wfFrom, Bool.and_eq_true, decide_eq_true_eq] at ht
    obtain ⟨⟨hb, hv⟩, ht⟩ := ht
    cases u with
    | nil => have := h j; simp [Tab.get] at this; exact absurd this hv
    | cons y u =>
      obtain ⟨i, w⟩ := y
      simp only [Tab.wfFrom, Bool.and_eq_true, decide_eq_true_eq] at hu
      obtain ⟨⟨hb', hw⟩, hu⟩ := hu
      have hji : j = i := by
        rcases Nat.lt_trichotomy j i with hlt | he | hgt
        · have := h j
          rw [Tab.get_below (t := (i, w) :: u) (b := i) (by simp [Tab.wfFrom, hw, hu]) hlt] at this
          simp [Tab.get] at this; exact absurd this hv
        · exact he
        · have := h i
          rw [Tab.get_below (t := (j, v) :: t) (b := j) (by simp [Tab.wfFrom, hv, ht]) hgt] at this
          simp [Tab.get] at this; exact absurd this.symm hw
      subst i
      have hvw : v = w := by have := h j; simpa [Tab.get] using this
      subst w
      have : t = u := ih ht hu fun k => by
        by_cases hk : k ≤ j
        · rw [Tab.get_below ht (by omega), Tab.get_below hu (by omega)]
        · have := h k
          have h1 : k ≠ j := by omega
          simpa [Tab.get, h1] using this
      rw [this]
/-- Equal tables are equal data. -/
theorem Tab.ext (ht : Tab.wf d t = true) (hu : Tab.wf d u = true) (h : ∀ k, Tab.get d t k = Tab.get d u k) : t = u :=
  Tab.ext_from ht hu h

end Sys2Proof.Machine
end

