-- ==== Sys2Proof/Laws/Counters.lean ====
section
/-!
SUPPORT. What registers read as after a write, and all that counting an event and sampling a request can change.
-/

namespace Sys2Proof.Machine

open Sys2Proof

/-! ### Registers -/

theorem rd_wr (e : Env) (m : M) (w w' : Nat) (v : Word) : rd e (wr e m w v) w' = if w' = w then v else rd e m w' := Tab.get_put
@[simp] theorem rd_wr_same (e : Env) (m : M) (w : Nat) (v : Word) : rd e (wr e m w v) w = v := by simp [rd_wr]
theorem rd_wr_other (e : Env) (m : M) {w w' : Nat} (v : Word) (h : w' ≠ w) : rd e (wr e m w v) w' = rd e m w' := by simp [rd_wr, h]

/-! ### Counting -/

/-- The overflow register of an island's counters. -/
def ovfWord (i : Nat) : Option Nat := (ctrGroup i).map fun g => g.1 + g.2.1 + 3 * g.2.2

/-- `b` is `a` but for its counters and for register `w`. -/
def OnlyCounters (e : Env) (w : Option Nat) (a b : M) : Prop :=
  b = { a with ctrs := b.ctrs, regs := b.regs } ∧ ∀ k, some k ≠ w → rd e b k = rd e a k

theorem OnlyCounters.refl (e : Env) (w : Option Nat) (a : M) : OnlyCounters e w a a := ⟨rfl, fun _ _ => rfl⟩
theorem OnlyCounters.trans {e : Env} {w : Option Nat} {a b c : M} (h : OnlyCounters e w a b) (h' : OnlyCounters e w b c) :
    OnlyCounters e w a c := by
  refine ⟨?_, fun k hk => (h'.2 k hk).trans (h.2 k hk)⟩
  rw [h'.1, h.1]
theorem OnlyCounters.foldl {e : Env} {w : Option Nat} {β : Type} {f : M → β → M} (h : ∀ m x, OnlyCounters e w m (f m x)) (xs : List β)
    (m : M) : OnlyCounters e w m (xs.foldl f m) := by
  induction xs generalizing m with
  | nil => exact .refl e w m
  | cons x xs ih => exact (h m x).trans (ih (f m x))

/-- Adding to a counter changes counters and, at its overflow, the overflow register of its island. -/
theorem addCtr_only (e : Env) (m : M) (i k n : Nat) : OnlyCounters e (ovfWord i) m (addCtr e m i k n) := by
  unfold addCtr ovfWord
  split
  · exact .refl ..
  · rename_i b p kk hg
    simp only [hg, Option.map_some]
    split
    · refine ⟨rfl, fun w hw => ?_⟩
      rw [rd_wr_other]
      · rfl
      · exact fun h => hw (by rw [h])
    · exact ⟨rfl, fun _ _ => rfl⟩
/-- So does counting an event. -/
theorem count_only (e : Env) (m : M) (i code n : Nat) (a : Option Agent) : OnlyCounters e (ovfWord i) m (count e m i code n a) := by
  unfold count
  split
  · exact .refl ..
  · split
    · refine .foldl (fun m k => ?_) _ _
      split
      · exact addCtr_only ..
      · exact .refl ..
    · exact .refl ..

/-! ### Sampling -/

/-- Sampling a request changes nothing but the sampler. -/
theorem sampleRequest_only (e : Env) (m : M) (r : Req) : ∃ x, sampleRequest e m r = m.setPrf fun _ => x := by
  unfold sampleRequest
  by_cases h : (!m.modeBit mSample || !e.cfg.smpMask.getLsbD r.port.n) = true
  · exact ⟨m.prf, by simp only [h, if_true]; rfl⟩
  · simp only [h]
    by_cases h0 : Tab.get (fun _ => 0) m.prf.countdown r.port.n = 0
    · simp only [h0, if_true]; exact ⟨_, rfl⟩
    · by_cases h1 : Tab.get (fun _ => 0) m.prf.countdown r.port.n = 1
      · simp only [h1]; exact ⟨_, rfl⟩
      · simp only [h0, h1]; exact ⟨_, rfl⟩

/-! ### Time -/

/-- Nothing but counters, their overflow registers and the counter of free values differs. -/
def CountedOnly (a b : M) : Prop := b = { a with ctrs := b.ctrs, regs := b.regs, free := b.free }

theorem CountedOnly.refl (a : M) : CountedOnly a a := rfl
theorem CountedOnly.trans {a b c : M} (h : CountedOnly a b) (h' : CountedOnly b c) : CountedOnly a c := by
  unfold CountedOnly at *
  rw [h', h]
theorem CountedOnly.foldl {β : Type} {f : M → β → M} (h : ∀ m x, CountedOnly m (f m x)) (xs : List β) (m : M) :
    CountedOnly m (xs.foldl f m) := by
  induction xs generalizing m with
  | nil => exact .refl m
  | cons x xs ih => exact (h m x).trans (ih (f m x))
theorem OnlyCounters.counted {e : Env} {w : Option Nat} {a b : M} (h : OnlyCounters e w a b) : CountedOnly a b := by
  unfold CountedOnly
  conv_lhs => rw [h.1]
  rw [h.1]

/-- Time that passes moves the tick, counts, and lets the channels issue their corrections; nothing else changes. -/
theorem elapse_shape (e : Env) (m : M) (n : Nat) : ∃ c g f d,
    elapse e m n = { m with now := m.now + n, ctrs := c, regs := g, free := f, dacs := d } := by
  unfold elapse
  split
  · rename_i h; subst h; exact ⟨_, _, _, _, rfl⟩
  · have step : ∀ (a : M) (i : Nat), CountedOnly a (if a.island i then
        let c := cyclesBetween e a i a.now (a.now + n)
        let a := if i < 16 then addCtr e a i 8 c else a
        match ctrGroup i with
        | none => a
        | some (b, p, kk) =>
          (List.range (min kk 8)).foldl (fun a k =>
            let ctl := rd e a (b + p + k)
            let q := cycleQty a i (fld ctl 0 16)
            if !ctl.getLsbD 23 then a
            else if openEvent i (fld ctl 0 16) then addCtr e { a with free := a.free + 1 } i k (Config.activity a.free)
            else if q != 0 then addCtr e a i k (q * c) else a) a
      else a) := by
      intro a i
      split
      · have h8 : ∀ x, CountedOnly a (if i < 16 then addCtr e a i 8 x else a) := by
          intro x; split
          · exact (addCtr_only ..).counted
          · exact .refl a
        simp only
        split
        · exact h8 _
        · refine (h8 _).trans (.foldl (fun m k => ?_) _ _)
          split
          · exact .refl m
          · split
            · exact CountedOnly.trans (b := { m with free := m.free + 1 }) rfl (addCtr_only ..).counted
            · split
              · exact (addCtr_only ..).counted
              · exact .refl m
      · exact .refl a
    have key : ∀ b, CountedOnly m b → ∃ c g f d,
        ({ b with now := b.now + n, dacs := Tab.mapVals (fun _ => .reset) (fun _ d => { d with corrections := [] }) b.dacs } : M) =
          { m with now := m.now + n, ctrs := c, regs := g, free := f, dacs := d } := by
      intro b hb
      rw [hb]
      exact ⟨_, _, _, _, rfl⟩
    exact key _ (.foldl step (List.range 31) m)

end Sys2Proof.Machine
end

