-- ==== Sys2Proof/Laws/Requests.lean ====
section
/-!
SUPPORT. What a port does with a request of an agent: what recording it changes, and how an admitted request goes on.
-/

namespace Sys2Proof.Machine

open Sys2Proof

/-- A message whose buffers are at hand is handled. -/
theorem delivered_of_buffered {s : State} {l : Lnk} {c n : Nat} (h : Buffered s l c n) (e : Env) (f : M → M) :
    delivered e s.m l c n f = f (s.received l c n) := by
  obtain ⟨h1, h2⟩ := h
  unfold delivered State.received
  by_cases hp : listLe (buffersOf (c, n)) (s.m.link l).rxPend = true
  · simp [h1, hp]
  · simp [h1, hp, h2.resolve_left hp]
/-- A message without room for it in its class breaks credits: it is discarded and the link retrains. -/
theorem delivered_overrun {s : State} {l : Lnk} {c n : Nat} (ha : (s.m.link l).st = .active)
    (hp : listLe (buffersOf (c, n)) (s.m.link l).rxPend = false) (hf : listLe (buffersOf (c, n)) (s.m.link l).rxFree = false)
    (e : Env) (f : M → M) : delivered e s.m l c n f = overrun e s.m l := by
  simp [delivered, ha, hp, hf]

/-- Taking the buffers of a message does not touch the state of any link. -/
@[simp] theorem received_link_st (s : State) (l : Lnk) (c n : Nat) (k : Lnk) : ((s.received l c n).link k).st = (s.m.link k).st := by
  by_cases h : k = l
  · subst h; unfold State.received; simp only [M.link, M.setLink, Tab.get_put_same]; by_cases hp : listLe (buffersOf (c, n)) (s.m.link k).rxPend = true <;> simp_all [M.link]
  · have h' : k.n ≠ l.n := fun e => h (by cases k <;> cases l <;> first | rfl | exact absurd e (by decide))
    simp [State.received, M.link, M.setLink, Tab.get_put_other, h']

/-- Recording a request changes its port, the buffers of its link, counters, and the samplers; of the registers it may touch the
overflow word of the port's island only. -/
theorem recorded_shape (s : State) (h : ReqHdr) (op : Op) (mask : Mask) (data : Data) (n : Nat) :
    (∃ c g x, s.recorded h op mask data n = { (s.received h.port.lnk 0 n).setPort h.port { s.m.port h.port with
      outstanding := (s.m.port h.port).outstanding ++ [(h.tag, h.agent, s.m.mode.gen)] } with ctrs := c, regs := g, prf := x })
      ∧ ∀ k, some k ≠ ovfWord h.port.lnk.island → rd s.env (s.recorded h op mask data n) k = rd s.env s.m k := by
  obtain ⟨h1, h2⟩ := count_only s.env ((s.received h.port.lnk 0 n).setPort h.port { s.m.port h.port with
      outstanding := (s.m.port h.port).outstanding ++ [(h.tag, h.agent, s.m.mode.gen)] }) h.port.lnk.island 6 1 (some h.agent)
  generalize hm : count s.env ((s.received h.port.lnk 0 n).setPort h.port { s.m.port h.port with
      outstanding := (s.m.port h.port).outstanding ++ [(h.tag, h.agent, s.m.mode.gen)] }) h.port.lnk.island 6 1 (some h.agent) = m1
    at h1 h2
  by_cases hc : op.cfg = true
  · have e : s.recorded h op mask data n = m1 := by simp only [State.recorded, hc, if_true]; exact hm
    rw [e]
    exact ⟨⟨m1.ctrs, m1.regs, _, h1⟩, h2⟩
  · have e : s.recorded h op mask data n = sampleRequest s.env m1 (s.req h op mask data) := by
      simp only [State.recorded, hc]; rw [← hm]; rfl
    obtain ⟨x, hx⟩ := sampleRequest_only s.env m1 (s.req h op mask data)
    rw [e, hx]
    refine ⟨⟨m1.ctrs, m1.regs, x, ?_⟩, h2⟩
    conv_lhs => rw [h1]
    rfl

/-- An admitted request that is no configuration access and no BARRIER_C is recorded and then held by QUIESCE or let in. -/
theorem request_in (s : State) (h : ReqHdr) (op : Op) (mask : Mask) (data : Data) (n : Nat) (f : M → Req → M)
    (ha : Admitted s h op mask) (hc : op.cfg = false) (hb : op ≠ .barrier) (hp : primaryFor s.m h.line = true) :
    request s.env (s.received h.port.lnk 0 n) h op mask data f =
      (if s.m.holding && !op.isEvict then (s.recorded h op mask data n).setPort h.port { (s.recorded h op mask data n).port h.port with
          hold := ((s.recorded h op mask data n).port h.port).hold ++ [s.req h op mask data] }
       else letIn s.env (s.recorded h op mask data n) (s.req h op mask data) false) := by
  obtain ⟨⟨⟨a1, -⟩, a2, a3, a4⟩, a5, a6, a7, a8, a9, a10⟩ := ha
  obtain ⟨⟨c, g, x, hr⟩, hg⟩ := recorded_shape s h op mask data n
  have e0 : (s.received h.port.lnk 0 n).port h.port = s.m.port h.port := rfl
  have e1 : linkFenced s.env (s.recorded h op mask data n) h.port.lnk = linkFenced s.env s.m h.port.lnk := by
    unfold linkFenced
    rw [hg _ (by cases h.port <;> decide)]
  have e2 : agentFenced s.env (s.recorded h op mask data n) h.agent = agentFenced s.env s.m h.agent := by
    unfold agentFenced
    rw [hg _ (by unfold fenceReg; cases h.port <;> split <;> decide)]
  have e3 : primaryFor (s.recorded h op mask data n) h.line = primaryFor s.m h.line := by rw [hr]; rfl
  have e4 : (s.recorded h op mask data n).holding = s.m.holding := by rw [hr]; rfl
  unfold request
  simp only [received_link_st, e0, a1, a2, a3, a4]
  have hrec : (let m := (s.received h.port.lnk 0 n).setPort h.port { s.m.port h.port with
      outstanding := (s.m.port h.port).outstanding ++ [(h.tag, h.agent, (s.received h.port.lnk 0 n).mode.gen)] }
      sampleRequest s.env (count s.env m h.port.lnk.island 6 1 (some h.agent)) (s.req h op mask data)) = s.recorded h op mask data n := by
    simp [State.recorded, hc]; rfl
  have hq : (⟨op, h.port, h.tag, h.agent, h.line, h.opf, h.flag, mask, data, h.priv, 0, (s.received h.port.lnk 0 n).now, 0, [], 0, false, none, false, false⟩ : Req) = s.req h op mask data := rfl
  simp only [hq, hc] at hrec ⊢
  simp only [Bool.false_eq_true, if_false] at *
  rw [hrec]
  simp [e1, e2, e3, e4, a5, a6, a7, a8, a9, a10, hb, hp]

end Sys2Proof.Machine
end

