-- ==== Sys2Proof/Tests/Slice0.lean ====
section
/-!
SUPPORT. Tests: the checks of well-formedness refuse what they should; worked examples of the specification; and, for each statement of
Certificates/Slice0/Obligations.lean, states and operands that meet its hypotheses.
-/

namespace Sys2Proof.Tests

open Sys2Proof Sys2Proof.Machine

/-! ### Well-formedness -/

theorem test_wf_lane_of_link : (Instr.lossOfSignal .ckl 8).wf = false := by decide
theorem test_wf_lane_of_link_ok : (Instr.lossOfSignal .ckl 7).wf = true := by decide
theorem test_wf_lock_lane : (Instr.laneLockTimeout .mpa 16).wf = false := by decide
theorem test_wf_group : (Instr.groupAlignmentLost .mpa 2).wf = false := by decide
theorem test_wf_detect_groups : (Instr.partnerDetected .ckl 2).wf = false := by decide
theorem test_wf_align_groups : (Instr.alignDone .mpb ⟨4, 0, []⟩).wf = false := by decide
theorem test_wf_trained_lanes : (Instr.trainEqDone .ckl 0x100 ⟨0, []⟩).wf = false := by decide
theorem test_wf_training_step : (Instr.daTraining 0 { pins := [(3, 2)] }).wf = false := by decide
theorem test_wf_learned : (Instr.alignDone .mpb ⟨3, 0, [⟨16, 1, 0, false⟩]⟩).wf = false := by decide
theorem test_wf_window : (Instr.clockCheckWindow ⟨[(3, 1), (3, 2)], []⟩).wf = false := by decide
theorem test_wf_epoch : (Instr.epochBoundary ⟨0, 0, [], []⟩).wf = false := by decide
theorem test_wf_sample : (Instr.inkSample [] 0 []).wf = false := by decide
theorem test_wf_boot : (Instr.bootRom { cause0 := 6 }).wf = false := by decide
theorem test_wf_verify : (Instr.fwVerifyDone 6).wf = false := by decide

/-! ### States the witnesses use -/

/-- A device that has reached READY, its firmware running, the links ACTIVE, every group of them in use. -/
def up : State :=
  let link (l : Lnk) : LinkSt := { LinkSt.reset with
    st := .active, groups := l.allGroups, trained := l.allGroups, bringupHold := false, rxFree := advertised l }
  { State.reset with m := { State.reset.m with
    pins := ⟨true, false, 0, false, false, true, false, false⟩
    boot := ⟨8, 0, false, none, false, false⟩
    links := [Lnk.hpa, .hpb, .mpa, .mpb, .ckl].map fun l => (l.n, link l)
    jpc := { State.reset.m.jpc with fw := .running } } }
/-- `up` with its machine changed. -/
def up' (f : M → M) : State := { up with m := f up.m }
/-- A privileged descriptor of HPA's first ring, whose arguments are `args` (byte, value). -/
def dsc (args : List (Nat × Nat)) : Desc := { ring := 0, args := BitVec.ofNat 448 ((args.map fun a => a.2 * 2 ^ (8 * (a.1 - 8))).sum) }
/-- A command that ends later, its number 1. -/
def cmd (opcode : BitVec 16) : Accepted := ⟨1, 0, 7, opcode, 0, some 50000, 0, 0, [0, 0, 0, 0], [], true⟩
/-- `up` with that command accepted. -/
def upCmd (a : Accepted) (f : M → M) : State := up' fun m => f (m.setJpc fun j => { j with accepted := [a], nextId := 2 })
/-- A request header of agent 1 on HPA. -/
def hdr : ReqHdr := { port := .hpa, tag := 5, agent := 1, line := 0x1000 }

theorem live_up : Live up := ⟨by decide, by decide⟩
theorem live_of {s : State} (h : (s.m.alive && !s.m.pins.testSampled) = true) : Live s := by
  simpa [Live] using h
/-- Whether the firmware takes a descriptor, as a check. -/
def takenB (s : State) (d : Desc) (any early recovery : Bool) : Bool :=
  (s.m.alive && !s.m.pins.testSampled)
    && ((s.m.jpc.fw == .running && (early || (s.m.boot.phase == 8 && s.m.boot.warm.isNone)))
      || (s.m.jpc.fw == .recovery && recovery && (d.ring.val == 10 || d.ring.val == 38)))
    && (any || privileged s.m d)
    && (match rspRing d.ring with
      | some r => s.m.ringFree r != 0 && (r != 39 || s.m.jpc.dbgWait.isEmpty)
      | none => false)
    && s.m.prf.snapCmd.isNone && inTurn s.m d.ring && !(d.flags.getLsbD 0 && s.m.jpc.accepted.any fun a => a.ring == d.ring)
    && d.flags.extractLsb' 2 6 == 0 && d.resv == 0
theorem taken_of {s : State} {d : Desc} {any early recovery : Bool} (h : takenB s d any early recovery = true) :
    Taken s d any early recovery := by
  unfold takenB at h
  simp only [Bool.and_eq_true, Bool.or_eq_true, beq_iff_eq, Bool.not_eq_true'] at h
  obtain ⟨⟨⟨⟨⟨⟨⟨⟨⟨h1, h2⟩, h3⟩, h4⟩, h5⟩, h6⟩, h0⟩, h7⟩, h8⟩, h9⟩ := h
  refine ⟨⟨h1, h2⟩, ?_, h4, ?_, ?_, by simpa using h6, h0, ?_, h8, h9⟩
  · rcases h3 with ⟨a, b | ⟨b, c⟩⟩ | ⟨⟨a, b⟩, c⟩
    · exact .inl ⟨a, .inl b⟩
    · exact .inl ⟨a, .inr ⟨b, by simpa using c⟩⟩
    · exact .inr ⟨a, b, c⟩
  · cases hr : rspRing d.ring <;> simp_all
  · intro r hr
    simp only [hr, Bool.and_eq_true, bne_iff_ne, Bool.or_eq_true] at h5
    exact ⟨h5.1, fun e => by rcases h5.2 with x | x; exact absurd e x; simpa using x⟩
  · intro hf
    rw [hf] at h7
    simpa using h7
/-- Whether an access reaches its register, as a check. -/
def reachesB (s : State) (a : Acc) (w : Nat) (write : Bool) : Bool :=
  (s.m.alive && !s.m.pins.testSampled) && pathUp s.m a.path && target (regAddr w) == .direct w true
    && allowed s.env s.m a (.direct w true) write && !regAbsent s.fuse.variant w
    && (regIsland w == 31 || (!s.m.isl.clkFail.getLsbD (regIsland w) && !s.m.isl.clkFail.getLsbD 16))
theorem reaches_of {s : State} {a : Acc} {w : Nat} {write : Bool} (h : reachesB s a w write = true) : Reaches s a w write := by
  unfold reachesB at h
  simp only [Bool.and_eq_true, Bool.or_eq_true, beq_iff_eq, Bool.not_eq_true'] at h
  obtain ⟨⟨⟨⟨⟨⟨h1, h2⟩, h3⟩, h4⟩, h5⟩, h6⟩, h7⟩ := h
  exact ⟨⟨h1, h2⟩, h3, h4, h5, h6, h7⟩
/-- SMBus, and a privileged agent on HPA. -/
def smb : Acc := { path := .smbus }
def hpaAcc : Acc := { path := .hpa, agent := 1 }

/-- Whether the buffers of a message are at hand, as a check. -/
def bufferedB (s : State) (l : Lnk) (cls slots : Nat) : Bool :=
  (s.m.link l).st == .active
    && (listLe (buffersOf (cls, slots)) (s.m.link l).rxPend || listLe (buffersOf (cls, slots)) (s.m.link l).rxFree)
theorem buffered_of {s : State} {l : Lnk} {cls slots : Nat} (h : bufferedB s l cls slots = true) : Buffered s l cls slots := by
  simpa [bufferedB, Buffered] using h

/-! ### Witnesses: the machine as a whole -/

theorem test_wit_step : ({ up with pending := [.tapReset] } : State).pending = .tapReset :: [] ∧ up.pending = [] ∧ Live up
    ∧ ¬ Live State.reset := ⟨rfl, rfl, live_up, by simp [Live, State.reset, M.reset, M.alive, Pins.reset]⟩
theorem test_wit_stops : up.m.pins.testSampled = false
    ∧ (up' fun m => m.setPins fun p => { p with testSampled := true }).m.pins.testSampled = true := ⟨rfl, rfl⟩
theorem test_wit_held : State.reset.m.alive = false ∧ State.reset.m.pins.testSampled = false
    ∧ (up' fun m => m.setPins fun p => { p with thermtrip := true }).m.alive = false := by decide
theorem test_wit_kept : ∃ t, exec .tapReset State.reset = .next t := ⟨_, rfl⟩
theorem test_wit_legal : ∃ t, step up = .next t ∧ up.cfg.appPolicy.extractLsb' 0 2 ≠ 3 ∧ up.cfg.floor ≤ up.cfg.grant :=
  ⟨_, rfl, by decide, by decide⟩

/-! ### Witnesses: the mailbox commands -/

theorem test_wit_info : Taken up (dsc []) true true true ∧ descOnly (dsc []) [] = true := ⟨taken_of (by decide), by decide⟩
theorem test_wit_colophon : Taken up (dsc [(8, 1)]) true true true ∧ descOnly (dsc [(8, 1)]) [(8, 1)] = true
    ∧ descArg (dsc [(8, 1)]) 8 1 = 1 ∧ descArg (dsc [(8, 0)]) 8 1 = 0 := ⟨taken_of (by decide), by decide⟩
theorem test_wit_status : Taken up (dsc [(8, 4)]) true true false ∧ descOnly (dsc [(8, 4)]) [(8, 1)] = true
    ∧ linkArg (dsc [(8, 4)]) = some .ckl ∧ up.fuse.variant.ckl = true := ⟨taken_of (by decide), by decide⟩
theorem test_wit_modes : Taken up (dsc [(8, 0x140)]) false false false ∧ descOnly (dsc [(8, 0x140)]) [(8, 2)] = true
    ∧ descArg (dsc [(8, 0x140)]) 8 2 = (0x140 : BitVec 12).toNat ∧ (0x140 : BitVec 12).getLsbD 11 = false
    ∧ BitVec.ofNat 16 (0x140 : BitVec 12).toNat &&& absentModes up.fuse.variant = 0
    ∧ up.m.twin.drainByPair = false ∧ up.m.twin.st ≠ .split := ⟨taken_of (by decide), by decide⟩
/-- SOLO alone is the highest mask. -/
theorem test_wit_mode_refusals : Taken up (dsc [(8, 0x800)]) false false false ∧ descOnly (dsc [(8, 0x800)]) [(8, 2)] = true
    ∧ descArg (dsc [(8, 0x800)]) 8 2 = (0x800 : BitVec 12).toNat ∧ (0x800 : BitVec 12).getLsbD 11 = true
    ∧ BitVec.ofNat 16 (0x800 : BitVec 12).toNat &&& absentModes up.fuse.variant = 0 := ⟨taken_of (by decide), by decide⟩
theorem test_wit_mode_settling :
    let s := up' fun m => m.setCoh fun c => { c with sweeps := [(3, .mirrorExit)] }
    Taken s (dsc [(8, 4)]) false false false ∧ (4 : BitVec 12).getLsbD mMirror = true ∧ s.m.modeBit mMirror = false
      ∧ s.m.coh.sweeps.any (fun x => x.2 == .mirrorExit) = true := ⟨taken_of (by decide), by decide⟩
theorem test_wit_mode_clear_drain :
    let s := up' fun m => m.setTwin fun t => { t with st := .split, drainByPair := true }
    Taken s (dsc [(8, 0x100)]) false false false ∧ (0x100 : BitVec 12).getLsbD mDrain = true ∧ s.m.twin.drainByPair = true :=
  ⟨taken_of (by decide), by decide⟩
theorem test_wit_mode_settled :
    let s := up' fun m => m.setMode fun x => { x with settling := 0x20 }
    Live s ∧ s.m.mode.settling.getLsbD 5 = true ∧ finished (up' fun m => m.setMode fun x => { x with settling := 1 }).m 0 = true :=
  ⟨live_of (by decide), by decide⟩
/-- Entry 63 is the last of the RAT. -/
theorem test_wit_rat : Taken up (dsc [(8, 63)]) false false false ∧ descOnly (dsc [(8, 63)]) [(8, 1), (16, 16)] = true
    ∧ descArg (dsc [(8, 63)]) 8 1 = (63 : Fin 64) ∧ (ratArg (dsc [(8, 63)])).legal = true ∧ up.m.twin.st ≠ .hello
    ∧ up.m.twin.st ≠ .shed ∧ up.m.jpc.accepted.length < 16 := ⟨taken_of (by decide), by decide⟩
theorem test_wit_rat_sync :
    let s := upCmd (cmd 0x0302) fun m => m.setCoh fun c => { c with syncs := [(1, [(.hpa, 5)])] }
    Live s ∧ s.m.acceptedCmd 1 = some (cmd 0x0302) ∧ s.m.coh.syncs.any (fun x => x.1 == 1) = true ∧ s.m.jpc.fw = .running :=
  ⟨live_of (by decide), by decide⟩
theorem test_wit_range : Taken up (dsc [(24, 0x1000)]) false false false ∧ rangeBad (dsc [(24, 0x1000)]) = false
    ∧ descArg (dsc [(24, 0x1000)]) 8 1 = 0 ∧ rangeBad (dsc [(8, 1), (24, 0x1000)]) = false ∧ descOnly (dsc [(12, 9)]) [(12, 4)] = true :=
  ⟨taken_of (by decide), by decide⟩
theorem test_wit_range_ends : Live (upCmd (cmd 0x0400) id) ∧ (upCmd (cmd 0x0400) id).m.acceptedCmd 1 = some (cmd 0x0400)
    ∧ rangeDone (upCmd (cmd 0x0400) id).env (upCmd (cmd 0x0400) id).m (cmd 0x0400) = some 0 := ⟨live_of (by decide), by decide⟩
theorem test_wit_link : Taken up (dsc [(8, 0), (9, 1)]) false false false ∧ linkArg (dsc [(8, 0), (9, 1)]) = some .hpa
    ∧ linkFenced up.env up.m .hpa = false ∧ holdDown up.env up.m .hpa = false ∧ (up.m.link .hpa).st = .active
    ∧ descOnly (dsc [(8, 0), (9, 1)]) [(8, 2)] = true ∧ descArg (dsc [(8, 0), (9, 1)]) 9 1 ≤ groupCount Lnk.hpa.allGroups
    ∧ descOnly (dsc [(8, 0), (10, 4095)]) [(8, 1), (10, 2)] = true := ⟨taken_of (by decide), by decide⟩
theorem test_wit_full_retrain :
    let a : Accepted := { cmd 0x0501 with base := 1 }
    let s := upCmd a fun m => m.setLink .hpa { m.link .hpa with st := .down, fullHold := true, cmds := [1] }
    Live s ∧ s.m.jpc.accepted = [a] ∧ (s.m.link .hpa).cmds = [a.id] ∧ a.base = 1 ∧ (s.m.link .hpa).fullHold = true
      ∧ a.deadline = some 50000 := ⟨live_of (by decide), by decide⟩
theorem test_wit_pair_start : Taken up (dsc [(8, 10)]) false false false ∧ descOnly (dsc [(8, 10)]) [(8, 4)] = true
    ∧ 10 ≤ descArg (dsc [(8, 10)]) 8 4 ∧ linkFenced up.env up.m .ckl = false ∧ up.m.twin.st = .unpaired :=
  ⟨taken_of (by decide), by decide⟩
theorem test_wit_adopt : Taken (up' fun m => m.setTwin fun t => { t with st := .adopted, rebuildPending := true }) (dsc [(8, 1)])
    false false false ∧ descArg (dsc [(8, 1)]) 8 1 = 1 ∧ descOnly (dsc [(8, 2)]) [(8, 1)] = true := ⟨taken_of (by decide), by decide⟩
/-- Outside ADOPTED with rebuild_pending 1: in UNPAIRED. -/
theorem test_wit_adopt_refused : Taken up (dsc [(8, 1)]) false false false ∧ up.fuse.variant.ckl = true
    ∧ ¬ (up.m.twin.st = .adopted ∧ up.m.twin.rebuildPending = true) := ⟨taken_of (by decide), by decide⟩
/-- The bounds of INK_GRANT: 190,000, and the floor itself. -/
theorem test_wit_ink : Taken up (dsc [(8, 190000)]) false false false ∧ descOnly (dsc [(8, 190000)]) [(8, 4)] = true
    ∧ descArg (dsc [(8, 190000)]) 8 4 = 190000 ∧ up.cfg.floorNext.toNat ≤ descArg (dsc [(8, 120000)]) 8 4
    ∧ 190000 ≤ up.cfg.grantNext.toNat := ⟨taken_of (by decide), by decide⟩
theorem test_wit_patrol_cfg : Taken up (dsc [(8, 10080), (12, 3), (13, 1)]) false false false
    ∧ descOnly (dsc [(8, 10080), (12, 3), (13, 1)]) [(8, 6)] = true ∧ descArg (dsc [(8, 10080), (12, 3), (13, 1)]) 8 4 = 10080
    ∧ descArg (dsc [(8, 60), (12, 1)]) 8 4 = 60 ∧ descArg (dsc [(8, 60), (12, 1)]) 12 1 ≠ 0 := ⟨taken_of (by decide), by decide⟩
theorem test_wit_proof_run :
    let s := up' fun m => m.setMode fun x => { x with active := x.active ||| 0x80 }
    Taken s (dsc [(8, 3), (10, 255)]) false false false ∧ descOnly (dsc [(8, 3), (10, 255)]) [(8, 8)] = true
      ∧ (itemInfo s.fuse.variant (descArg (dsc [(8, 3), (10, 255)]) 8 2)).map (·.units) = some 256 ∧ s.m.modeBit mProof = true
      ∧ s.m.proof.runs.any (fun o => o.state == 1) = false := ⟨taken_of (by decide), by decide⟩
/-- A run of TAG_WAY 0 that runs, its command accepted. -/
def run1 : Run := ⟨1, 1, 0, 1, 0, 32, false, false, 0, 0, 1, false, 0⟩
def upRun (r : Run) : State := upCmd (cmd 0x0801) fun m => m.setProof fun p => { p with runs := [r] }
theorem test_wit_proof_runs : Live (upRun run1) ∧ Taken (upRun run1) (dsc [(8, 1)]) false false false
    ∧ knownRun (upRun run1).m 1 = some run1 ∧ (upRun run1).m.runOf 1 = some run1 ∧ run1.state ≠ 2 ∧ runReady run1 = false
    ∧ runReady { run1 with step := 32 } = true ∧ (upRun run1).m.acceptedCmd 1 = some (cmd 0x0801) :=
  ⟨live_of (by decide), taken_of (by decide), by decide⟩
theorem test_wit_perf : Taken up (dsc [(8, 0), (9, 15), (10, 7), (12, 1)]) false false false
    ∧ perfBlock (descArg (dsc [(8, 0), (9, 15)]) 8 1) (descArg (dsc [(8, 0), (9, 15)]) 9 1) = some (15, 8)
    ∧ (ctrGroup 15).isSome = true ∧ eventListed 15 1 = true ∧ descOnly (dsc [(8, 20), (9, 3), (10, 1)]) [(8, 3)] = true
    ∧ up.fuse.variant.sample = true ∧ descArg (dsc [(8, 1), (9, 1)]) 9 1 < 2 := ⟨taken_of (by decide), by decide⟩
theorem test_wit_log :
    let x : LogEntry := ⟨3, 5, 1, 31, false, false, 1, 0, 0, 0⟩
    let s := up' fun m => m.setErr fun r => { r with log := [(0, x)], next := 1, slip := [x] }
    Taken s (dsc []) false true false ∧ descOnly (dsc []) [(8, 5)] = true ∧ logIndex s.m 0 = some 0
      ∧ s.m.err.log.find? (fun y => y.1 == 0) = some (0, x) ∧ s.m.err.bad = [] ∧ slipEntry s.m 0 = some x
      ∧ descArg (dsc [(12, 1)]) 12 1 = 1 ∧ s.m.err.degraded = false := ⟨taken_of (by decide), by decide⟩
theorem test_wit_fw_stage : Taken up (dsc [(12, 48)]) false false true ∧ descArg (dsc [(12, 48)]) 12 2 = 48
    ∧ descOnly (dsc [(12, 48)]) [(8, 6), (16, 48)] = true ∧ up.m.jpc.session = none := ⟨taken_of (by decide), by decide⟩
theorem test_wit_fw :
    let s := up' fun m => m.setJpc fun j => { j with session := some ⟨.hpa, 48, 0⟩, trialRun := true }
    Taken s (dsc [(8, 1)]) false false true ∧ s.m.jpc.session = some ⟨.hpa, 48, 0⟩ ∧ ringPath (dsc []).ring = .hpa
      ∧ s.m.jpc.trialRun = true ∧ s.m.jpc.record.valid (!s.m.jpc.slot) = true := ⟨taken_of (by decide), by decide⟩
theorem test_wit_fw_verify : Live (upCmd (cmd 0x0B01) id)
    ∧ (upCmd (cmd 0x0B01) id).m.jpc.accepted.find? (fun a => a.opcode == 0x0B01) = some (cmd 0x0B01)
    ∧ imageCause up.fuse 0 = 0 ∧ imageCause up.fuse 1 ≠ 0 := ⟨live_of (by decide), by decide⟩
theorem test_wit_boot_rom :
    let r : BootRecord := ⟨false, true, 3, false, true, true, 0⟩
    r.trial = true ∧ 3 ≤ r.trialBoots ∧ BootRecord.blank.trial = false ∧ imageCause up.fuse 2 ≠ 0
      ∧ BootRecord.blank.valid true = true := by decide
theorem test_wit_controller :
    let s := up' fun m => m.setJpc fun j => { j with fw := .restarting }
    Live s ∧ s.m.jpc.fw = .restarting ∧ (bootImage s.env s.m {}).2 = true
      ∧ (bootImage s.env s.m { cause0 := 1, cause1 := 1 }).2 = false ∧ up.m.jpc.fw = .running ∧ up.m.jpc.clockHalt = false :=
  ⟨live_of (by decide), by decide⟩
theorem test_wit_app : Taken up (dsc [(8, 3), (9, 2), (10, 1)]) false false false ∧ up.fuse.variant.far = true
    ∧ descOnly (dsc [(8, 3), (9, 2), (10, 1)]) [(8, 3)] = true ∧ descArg (dsc [(8, 3), (9, 2)]) 9 1 < 3 :=
  ⟨taken_of (by decide), by decide⟩
theorem test_wit_ecc : Taken up (dsc [(9, 7), (16, 1), (22, 1)]) false false false
    ∧ descOnly (dsc [(9, 7), (16, 1), (22, 1)]) [(8, 3), (12, 4), (16, 5), (22, 2)] = true
    ∧ descArg (dsc [(9, 7), (16, 1), (22, 1)]) 9 1 < up.fuse.variant.dacs
    ∧ channelBlocked (up' fun m => m.setDac 7 { m.dac 7 with st := .active }).m 7 = false
    ∧ descOnly (dsc [(8, 4), (16, 1)]) [(8, 3), (12, 4), (16, 9)] = true := ⟨taken_of (by decide), by decide⟩
theorem test_wit_pinmark : descArg (dsc [(8, 7), (12, 63)]) 12 5 = (63 : BitVec 40).toNat
    ∧ popCount ((up.m.dac 7).marks ||| (63 : BitVec 40)) ≤ 6 ∧ descOnly (dsc [(8, 7), (12, 63)]) [(8, 1), (12, 5)] = true := by decide
theorem test_wit_port :
    let s := up' fun m => m.setPort .hpa { m.port .hpa with window := some 0 }
    Taken s (dsc [(10, 100)]) false false false ∧ portArg (dsc [(10, 100)]) = some .hpa ∧ (s.m.port .hpa).window = some 0
      ∧ s.m.now ≤ 0 + 50000 ∧ (s.m.port .hpa).interval = none ∧ descOnly (dsc [(10, 100)]) [(8, 1), (10, 2)] = true :=
  ⟨taken_of (by decide), by decide⟩
theorem test_wit_port_fence : Taken up (dsc [(8, 1), (10, 63)]) false false false ∧ descArg (dsc [(8, 1), (10, 63)]) 10 1 = (63 : Agent).toNat
    ∧ descOnly (dsc [(8, 1), (10, 63)]) [(8, 1), (10, 1)] = true ∧ Lnk.ofField (descArg (dsc [(9, 4)]) 9 1) = some .ckl
    ∧ linkFenced up.env up.m (agentPort 63).lnk = false ∧ descOnly (dsc [(9, 1)]) [(8, 2), (12, 4)] = true :=
  ⟨taken_of (by decide), by decide⟩
/-- HPB fenced: agent 63 is one of its agents. -/
theorem test_wit_unfence :
    let s := up' fun m => wr up.env m (rViolStat .hpb) 0x4000
    Taken s (dsc [(8, 1), (10, 63)]) false false false ∧ linkFenced s.env s.m (agentPort 63).lnk = true :=
  ⟨taken_of (by decide), by decide⟩

/-! ### Witnesses: the messages of agents and memory controllers -/

/-- A transaction of `hdr`'s request in a phase. -/
def txn (phase : Phase) (snoops : List Snp) : Txn :=
  ⟨up.req hdr .rdOwn 0 0, phase, .unmapped, snoops, false, false, 0, none, false, .empty, .e, none, false, false, 0, 16, 0, false, false, 0,
    false, false, false, false, false, none⟩
def upTxn (t : Txn) (f : M → M) : State := up' fun m => f (m.setCoh fun c => { c with txns := [t] })
/-- A snoop of agent 1 with tag 9. -/
def snp (bcast : Bool) (evp : Option Agent) : Snp := ⟨.hpa, 9, 1, bcast, .inv, false, some 0, evp, false, false, []⟩

theorem test_wit_request : Live up ∧ Admitted (up' fun m => m.setMode fun x => { x with active := 0x61 }) hdr .rdShared fullMask
    ∧ Passes (up' fun m => m.setMode fun x => { x with active := 0x61 }) hdr .rdShared ∧ primaryFor up.m hdr.line = true :=
  ⟨live_up, ⟨⟨buffered_of (by decide), by decide, by decide, by decide⟩, by decide, by decide, by decide, by decide, by decide, by decide⟩,
    ⟨.inl (by decide), by decide⟩, by decide⟩
theorem test_wit_write :
    Admitted up { hdr with opf := 1 } .wrNt 0xFFFF ∧ up.m.stickAt .hpa hdr.line = none
      ∧ Admitted up { hdr with opf := 1 } .wrPart 0xFFFF ∧ Admitted up { hdr with opf := 1 } .cndSt 0xFFFF :=
  ⟨⟨⟨buffered_of (by decide), by decide, by decide, by decide⟩, by decide, by decide, by decide, by decide, by decide, by decide⟩, by decide,
    ⟨⟨buffered_of (by decide), by decide, by decide, by decide⟩, by decide, by decide, by decide, by decide, by decide, by decide⟩,
    ⟨⟨buffered_of (by decide), by decide, by decide, by decide⟩, by decide, by decide, by decide, by decide, by decide, by decide⟩⟩
/-- QUIESCE is set from reset on; six closed epochs leave room for a seventh. -/
theorem test_wit_quiesce : up.m.holding = true ∧ Admitted up { hdr with line := 0 } .barrier fullMask
    ∧ closedEpochs ((up.m.port .hpa).epochsOf 1) < 7 ∧ Op.evictClean.isEvict = true ∧ ((up.m.port .hpa).epochsOf 1).hold = [] :=
  ⟨by decide, ⟨⟨buffered_of (by decide), by decide, by decide, by decide⟩, by decide, by decide, by decide, by decide, by decide, by decide⟩,
    by decide, by decide, by decide⟩
theorem test_wit_malformed : Live up ∧ agentPort 32 ≠ HPort.hpa ∧ agentPort 31 = HPort.hpa
    ∧ ((up' fun m => m.setPort .hpa { m.port .hpa with outstanding := [(5, 1, 0)] }).m.port .hpa).outstanding.any (fun x => x.1 == 5) = true :=
  ⟨live_up, by decide⟩
/-- A configuration request of an address and a value. -/
def cfgHdr (addr data : Word) : ReqHdr :=
  { hdr with priv := true, line := data.setWidth 13 ++ addr, opf := (data.extractLsb' 13 19).setWidth 51 }
theorem test_wit_cfg : (cfgHdr 0x38 0x12345678).cfgAddr = 0x38 ∧ (cfgHdr 0x38 0x12345678).cfgData = 0x12345678
    ∧ Formed up (cfgHdr 0x38 1) .cfgWr 0 ∧ hdrReserved (cfgHdr 0x38 1) .cfgWr = false ∧ Formed up (cfgHdr 0x38 0) .cfgRd 0
    ∧ hdrReserved (cfgHdr 0x38 0) .cfgRd = false ∧ (up.m.port .hpa).agentMap.getLsbD (hdr.agent.toNat % 32) = true
    ∧ (access up.env up.m hpaAcc 0x38 true 1).2 = .done ∧ (access up.env up.m { hpaAcc with priv := false } 0x38 true 1).2 = .denied :=
  ⟨by decide, by decide, ⟨buffered_of (by decide), by decide, by decide, by decide⟩, by decide, ⟨buffered_of (by decide), by decide, by decide, by decide⟩,
    by decide, by decide, by decide, by decide⟩
theorem test_wit_misaligned : (cfgHdr 0x3B 0).cfgAddr.extractLsb' 0 2 = 3 ∧ Formed up (cfgHdr 0x3B 0) .cfgRd 0
    ∧ hdrReserved (cfgHdr 0x3B 0) .cfgRd = false :=
  ⟨by decide, ⟨buffered_of (by decide), by decide, by decide, by decide⟩, by decide⟩
/-- The first and the last word of the mirror window that name a register of GLB. -/
theorem test_wit_mirror : target 0x800000 = .mirror 0 true ∧ target 0x800038 = .mirror 14 true
    ∧ allowed up.env up.m hpaAcc (target 0x800038) true = true ∧ Formed up (cfgHdr 0x800038 1) .cfgWr 0
    ∧ hdrReserved (cfgHdr 0x800038 1) .cfgWr = false :=
  ⟨by decide, by decide, by decide, ⟨buffered_of (by decide), by decide, by decide, by decide⟩, by decide⟩
/-- On an FJ2916-SB: the Crekar block, channel 4, the sampler, and a far-atomic register of slice 15. -/
theorem test_wit_absent : target (regAddr 0xA001) = .direct 0xA001 true ∧ regAbsent .sb2916 0xA001 = true
    ∧ target (regAddr 0x24000) = .direct 0x24000 true ∧ regAbsent .sb2916 0x24000 = true
    ∧ target (regAddr 0x6004) = .direct 0x6004 true ∧ regAbsent .sb2916 0x6004 = true
    ∧ regAbsent .sb2916 0x4F050 = true ∧ regAbsent .px2932 0xA001 = false := by decide
theorem test_wit_snoop : findSnp (upTxn (txn .snoop [snp false none]) id).m .hpa 9 = some (txn .snoop [snp false none], snp false none)
    ∧ Live (upTxn (txn .snoop [snp false none]) id) ∧ sliceDead up.m (sliceOf hdr.line) = false ∧ (snp false none).held = false
    ∧ findSnp up.m .hpa 9 = none ∧ (snp true none).bcast = true ∧ (snp false (some 1)).evp.isSome = true :=
  ⟨rfl, live_of (by decide), by decide⟩
theorem test_wit_grant_ack :
    let s := upTxn (txn .granted []) fun m => m.setPort .hpa { m.port .hpa with outstanding := [(5, 1, 0)] }
    Live s ∧ s.m.coh.txns.find? (fun t => t.phase == .granted && t.req.port == .hpa && t.req.tag == 5 && !t.dropped) = some (txn .granted [])
      ∧ (s.m.port .hpa).outstanding.any (fun x => x.1 == 5) = true ∧ agentFenced s.env s.m 1 = false
      ∧ linkFenced s.env s.m .hpa = false := ⟨live_of (by decide), rfl, by decide⟩
theorem test_wit_late_ack :
    ((up' fun m => m.setPort .hpa { m.port .hpa with voided := [5] }).m.port .hpa).voided.contains 5 = true := by decide
/-- A read, and a write, outstanding at MPA. -/
def memReq (write : Bool) : MemReq := ⟨3, 0x1000, .read, write, true, 0, 0, false, some 0, none⟩
def upMem (write : Bool) : State := up' fun m => m.setMem .mpa { m.mem .mpa with outstanding := [memReq write] }
theorem test_wit_memory : Live (upMem false) ∧ ((upMem false).m.link .mpa).st = .active ∧ memFind (upMem false).m .mpa 3 = some (memReq false)
    ∧ memFind (upMem true).m .mpa 3 = some (memReq true) ∧ memFind up.m .mpa 3 = none ∧ sliceDead up.m (sliceOf 0x1000) = false :=
  ⟨live_of (by decide), by decide, rfl, rfl, rfl, by decide⟩

/-! ### Witnesses: links -/

def upLink (l : Lnk) (f : LinkSt → LinkSt) : State := up' fun m => m.setLink l (f (m.link l))
/-- A flit of the given slots, number, ack and type, and its CRC. -/
def body (seq ack : Tag) (type : Nat) (slots : BitVec 512) : BitVec 544 :=
  slots.setWidth 544 ||| (seq.setWidth 544 <<< 512) ||| (ack.setWidth 544 <<< 524) ||| (BitVec.ofNat 544 type <<< 536)
def flit (b : BitVec 544) : BitVec 576 := crc32 b 68 ++ b
theorem flit_bit (b : BitVec 544) (k : Nat) : (flit b).getLsbD k = if k < 544 then b.getLsbD k else (crc32 b 68).getLsbD (k - 544) :=
  BitVec.getLsbD_append
theorem flit_body (b : BitVec 544) : (flit b).setWidth 544 = b := by
  ext i h; simp [flit_bit, h]
/-- A field below the CRC is the body's. -/
theorem flit_field (b : BitVec 544) (lo w : Nat) (h : lo + w ≤ 544) : (flit b).extractLsb' lo w = b.extractLsb' lo w := by
  ext i hi
  have : lo + i < 544 := by omega
  simp [flit_bit, this]
theorem flit_valid (b : BitVec 544) : flitValid (flit b) false = true := by
  have h : (flit b).extractLsb' 544 32 = crc32 b 68 := by
    ext i h; simp [flit_bit, h]
  simp [flitValid, flit_body, h]
theorem flit_totals (b : BitVec 544) : flitTotals (flit b) = (List.range 4).map fun c => (b.extractLsb' (16 * c) 12).toNat := by
  refine List.map_congr_left fun c h => ?_
  rw [flit_field]; have := List.mem_range.mp h; omega
/-- The least INIT flit of a memory controller: role 2, eight requests and eight data. -/
def initSlots : BitVec 512 := BitVec.ofNat 512 (8 + 8 * 2 ^ 48 + 2 * 2 ^ 60)
theorem test_wit_flits : Live up ∧ (up.m.link .ckl).st = .active ∧ flitValid (flit (body 0 0xFFF 1 0)) false = true
    ∧ flitType (flit (body 0 0xFFF 1 0)) = 1 ∧ flitSeq (flit (body 0 0xFFF 1 0)) = (up.m.link .ckl).rxExpected
    ∧ flitAck (flit (body 0 0xFFF 1 0)) = 0xFFF ∧ flitValid 0 true = false := by
  refine ⟨live_up, by decide, flit_valid _, ?_, ?_, ?_, rfl⟩
  · rw [flitType, flit_field _ _ _ (by decide)]; decide +kernel
  · rw [flitSeq, flit_field _ _ _ (by decide)]; decide +kernel
  · rw [flitAck, flit_field _ _ _ (by decide)]; decide +kernel
theorem test_wit_init_flit : ((upLink .mpa fun x => { x with st := .initCredit }).m.link .mpa).st = .initCredit
    ∧ flitValid (flit (body 0 0xFFF 4 initSlots)) false = true ∧ flitType (flit (body 0 0xFFF 4 initSlots)) = 4
    ∧ flitRole (flit (body 0 0xFFF 4 initSlots)) = partnerRole .mpa
    ∧ listLe (leastAdv .mpa) (flitTotals (flit (body 0 0xFFF 4 initSlots))) = true
    ∧ listLe (leastAdv .mpa) (flitTotals (flit (body 0 0xFFF 4 (2 <<< 60)))) = false := by
  refine ⟨by decide, flit_valid _, ?_, ?_, ?_, ?_⟩
  · rw [flitType, flit_field _ _ _ (by decide)]; decide +kernel
  · rw [flitRole, flit_field _ _ _ (by decide)]; decide +kernel
  · rw [flit_totals]; decide +kernel
  · rw [flit_totals]; decide +kernel
theorem test_wit_link_timers :
    let s := upLink .ckl fun x => { x with nakPending := true, nakTick := 7, replay := [⟨0, [], [], 0⟩] }
    Live s ∧ (s.m.link .ckl).st = .active ∧ (s.m.link .ckl).nakPending = true ∧ (s.m.link .ckl).replay ≠ [] :=
  ⟨live_of (by decide), by decide⟩
theorem test_wit_retraining :
    let s := upLink .hpa fun x => { x with st := .retrain }
    Live s ∧ (s.m.link .hpa).st = .retrain ∧ (s.m.link .hpa).groups.getLsbD (23 / 8) = true
      ∧ goodGroups (1 <<< 23) (s.m.link .hpa).groups ≠ 0
      ∧ ((upLink .hpa fun x => { x with retrained := true }).m.link .hpa).retrained = true := ⟨live_of (by decide), by decide⟩
theorem test_wit_training :
    let s (st : LState) := upLink .mpb fun x => { x with st := st }
    Live (s .down) ∧ mayLeaveDown (s .down).env (s .down).m .mpb = true ∧ ((s .detect).m.link .mpb).st = .detect
      ∧ (1 : BitVec 3) &&& Lnk.mpb.allGroups ≠ 0 ∧ goodGroups 0xFFFF 3 = 0 ∧ goodGroups 0 3 ≠ 0
      ∧ chooseGroups up.env up.m .mpb 3 ≠ 0 ∧ chooseGroups up.env up.m .mpb 0 = 0 := ⟨live_of (by decide), by decide⟩
theorem test_wit_port_events : Live up ∧ (up.m.link .hpb).st = .active
    ∧ ((upLink .hpb fun x => { x with st := .down }).m.link .hpb).st = .down ∧ memFind (upMem true).m .mpa 3 = some (memReq true) :=
  ⟨live_up, by decide, by decide, rfl⟩

/-! ### Witnesses: timers of slices and ports -/

theorem test_wit_snoop_timeouts : (snp false none).evp = none ∧ (snp false none).bcast = false ∧ (snp true none).evp = none
    ∧ (elapseTo up.env up.m 200).port .hpa = up.m.port .hpa := by
  refine ⟨rfl, rfl, rfl, ?_⟩
  obtain ⟨c, g, f, d, h⟩ := elapse_shape up.env up.m (200 - up.m.now)
  rw [elapseTo, h]; rfl
theorem test_wit_tracker : (upTxn (txn .tracker []) id).m.coh.txns.find? (fun t => t.phase == .tracker && sliceOf t.req.line == sliceOf 0x1000) =
    some (txn .tracker []) := rfl
theorem test_wit_recovery :
    let s := up' fun m => m.setPort .hpa { m.port .hpa with interval := some (0, 5000000, 0, 1) }
    (s.m.port .hpa).interval = some (0, 5000000, 0, 1)
      ∧ ((up' fun m => m.setPort .hpa { m.port .hpa with window := some 3 }).m.port .hpa).window = some 3 := by decide
/-- Slot 7 is the last of a slice. -/
theorem test_wit_reservations :
    let s := up' fun m => m.setSlot 15 7 ⟨1, 0x1000, true, 0, true, some 0⟩
    (s.m.slot 15 7).armed = true ∧ (List.range 8).find? (fun k => (s.m.slot 15 k).armed && (s.m.slot 15 k).guarded) = some 7
      ∧ (up' fun m => m.setStarve 15 [(1, 0x1000, 0)]).m.starve 15 = [(1, 0x1000, 0)] ∧ guardOn up.m 0x1000 ≠ some 1 := by decide
theorem test_wit_spans : (upTxn (txn .attr []) id).m.coh.txns.any (fun t => t.phase == .attr && folioOf t.req.line == folioOf 0x1000) = true
    ∧ ((up' fun m => m.setSpans 0 [⟨0, 9, .unmapped, 0, 0⟩]).m.spans 0).find? (fun y => decide (y.lo ≤ 9) && decide (9 ≤ y.hi)) =
      some ⟨0, 9, .unmapped, 0, 0⟩ ∧ sliceDead up.m 0 = false := ⟨by decide, rfl, by decide⟩
theorem test_wit_sticks :
    let k : Stick := ⟨0x1000, 0xFF, 0, false, 2, [], true, .unmapped, 4⟩
    let s := up' fun m => m.setPort .hpa { m.port .hpa with sticks := [k] }
    s.m.stickAt .hpa 0x1000 = some k ∧ k.replied = true ∧ sliceReady s.m (sliceOf 0x1000) = true
      ∧ (up' fun m => m.setCoh fun c => { c with notices := [(0, .hpa, 1, 0)] }).m.coh.notices.contains (0, .hpa, 1, 0) = true :=
  ⟨rfl, rfl, by decide, by decide⟩

/-! ### Witnesses: islands, channels, energy -/

/-- GLB_ISL_STOP_EN allows HPA's island to stop, its link being DOWN. -/
theorem test_wit_islands :
    let s := up' fun m => (wr up.env m rStopEn 0x20000).setLink .hpa { m.link .hpa with st := .down }
    Live s ∧ canStop s.env s.m 17 = true ∧ s.m.isl.waking.getLsbD 17 = false ∧ stoppable 17 = true
      ∧ (up' fun m => m.setIsl fun x => { x with run := 0 }).m.isl.run.getLsbD 28 = false
      ∧ (s.m.dac 7).sref = false := ⟨live_of (by decide), by decide⟩
theorem test_wit_clocks : up.m.isl.clkFail.getLsbD 31 = false ∧ countBad (expectedCount up.env up.m 16) 176 = false
    ∧ countBad (expectedCount up.env up.m 16) 0 = true ∧ up.m.island 16 = true
    ∧ (up' fun m => m.setBoot fun b => { b with phase := 1 }).m.boot.phase = 1 := by decide
theorem test_wit_channels :
    let s := up' fun m => (m.setDac 7 { m.dac 7 with st := .active, diag := some 5 }).setBoot fun b => { b with phase := 3 }
    Live s ∧ s.m.boot.phase = 3 ∧ s.m.boot.stopped = false ∧ dacPresent s.env 7 = true ∧ (s.m.dac 7).st = .active
      ∧ (s.m.dac 7).sref = false ∧ (s.m.dac 7).diag = some 5 := ⟨live_of (by decide), by decide⟩
/-- The bounds at which the warning, the throttle and the trip meet. -/
theorem test_wit_heat : (96 : BitVec 8).toInt < 97 ∧ 97 ≤ (97 : BitVec 8).toInt ∧ 100 ≤ (100 : BitVec 8).toInt ∧ 105 ≤ (105 : BitVec 8).toInt
    ∧ 115 ≤ (115 : BitVec 8).toInt ∧ (0x80 : BitVec 8).toInt < 97
    ∧ (up' fun m => m.setInk fun i => { i with thermCeil := some 300 }).m.ink.thermCeil = some 300
    ∧ effCeil up.env up.m * 103 < 1000000 * 100 ∧ up.m.ink.sensorFault.getLsbD 6 = false := by decide
theorem test_wit_epoch : up.m.ink.planned = false ∧ up.m.ink.planMissing = false ∧ up.m.now ≤ up.m.epochStart + 5000
    ∧ (up' fun m => { m with now := 5001 }).m.epochStart + 5000 < (up' fun m => { m with now := 5001 }).m.now := by decide
theorem test_wit_chunks :
    let s := up' fun m => (m.setInk fun i => { i with quota := [1, 1, 1, 1, 1, 1] }).setTwin fun t => { t with st := .paired, catchup := 0x8000 }
    Live s ∧ (takeQuota s.m 0).isSome = true ∧ (takeQuota s.m 1).isSome = true ∧ s.m.twin.catchup.getLsbD 15 = true
      ∧ (takeQuota s.m 5).isSome = true ∧ sliceDead s.m 15 = false := ⟨live_of (by decide), by decide⟩

/-! ### Witnesses: the pair -/

def upPair (st : PairState) (f : M → M) : State := up' fun m => f (m.setTwin fun t => { t with st := st })
theorem test_wit_pair_messages : Live (upPair .shed id) ∧ (up.m.link .ckl).st = .active ∧ up.m.jpc.fw = .running
    ∧ (upPair .shed id).m.twin.st = .shed ∧ (upPair .shed id).m.twin.senior = false ∧ (upPair .paired id).m.twin.st = .paired
    ∧ ((upPair .releasing id).m.setTwin fun t => { t with shedSent := true }).twin.shedSent = true
    ∧ sliceDead (mirIn up.env (up.received .ckl 1 8) true) (sliceOf 0x1000) = false := ⟨live_of (by decide), by decide⟩
theorem test_wit_mirror_primary :
    let s := upPair .paired fun m => m.setMir fun r => { r with outstanding := [⟨1, 0x1000, false, 0⟩] }
    Live s ∧ (takeAnswer (count s.env (s.received .ckl 2 0) 29 7 1 none) 1).isSome = true
      ∧ (takeAnswer (count s.env (s.received .ckl 2 0) 29 7 1 none) 0xFFF).isSome = false := ⟨live_of (by decide), by decide⟩
theorem test_wit_pair_timers :
    (upPair .paired fun m => m.setLink .ckl { m.link .ckl with st := .down }).m.twin.st = .paired
      ∧ (upPair .suspect id).m.twin.st = .suspect ∧ portUp up.m .hpb = true ∧ (upPair .isolated id).m.mir.isolatedSince = none
      ∧ drainClean (upPair .split id).m = true ∧ shedDirty up.m = false
      ∧ (up' fun m => m.setMir fun r => { r with busyRetry := [(0x1000, 4)] }).m.mir.busyRetry.find? (fun x => x.1 == 0x1000) = some (0x1000, 4)
      ∧ (up' fun m => (m.setTwin fun t => { t with shedPhase := 1 }).setMir fun r => { r with heard := some 2 }).m.twin.shedPhase = 1
      ∧ (upPair .hello id).m.twin.st = .hello := by decide
theorem test_wit_proof_work : (upRun { run1 with window := true }).m.runOf 1 = some { run1 with window := true }
    ∧ run1.state = 1 ∧ runReady run1 = false ∧ run1.evacuating = false ∧ run1.item.toNat < 4
    ∧ (takeQuota (up' fun m => m.setInk fun i => { i with quota := [1, 1, 1, 1, 1, 1] }).m 3).isSome = true
    ∧ patrolDue up.env up.m true = true ∧ patrolOn up.env up.m true = true
    ∧ (patrolQuota up.env (up' fun m => m.setInk fun i => { i with quota := [1, 1, 1, 1, 1, 1] }).m true).isSome = true
    ∧ (up.m.pass false).late = false := by decide

/-! ### Witnesses: registers -/

theorem test_wit_quoins : Reaches up hpaAcc (0x3000 + 63) false ∧ Reaches up hpaAcc (0x3000 + 63) true ∧ Reaches up hpaAcc 18 true
    ∧ (up.m.quoin 63).owner = 0 ∧ fld (0x13F : Word) 0 6 = 63 ∧ (0x13F : Word).getLsbD 8 = true
    ∧ ((up' fun m => m.setQuoin 0 ⟨0x140, false, 0⟩).m.quoin 0).owner ≠ 0 ∧ ownerPath 0x140 = 5 :=
  ⟨reaches_of (by decide), reaches_of (by decide), reaches_of (by decide), by decide⟩
theorem test_wit_counters : ctrWord ⟨0, 9⟩ 1 = some 0x40039 ∨ ∃ w, ctrWord ⟨0, 9⟩ 1 = some w ∧ Reaches up smb w false :=
  .inr ⟨_, rfl, reaches_of (by decide)⟩
theorem test_wit_snapshot : Reaches up smb 0x6000 true ∧ (up' fun m => m.setPrf fun x => { x with busy := true }).m.prf.busy = true :=
  ⟨reaches_of (by decide), rfl⟩
theorem test_wit_doorbell : Reaches up smb (0x2080 + 39) true ∧ Reaches up smb 3 true ∧ Reaches up { path := .jtag } 3 true
    ∧ Reaches up { path := .jpc } 3 true :=
  ⟨reaches_of (by decide), reaches_of (by decide), reaches_of (by decide), reaches_of (by decide)⟩
theorem test_wit_windows : target 0x1000700 = .alias_ 14 0 true ∧ target 0x800038 = .mirror 14 true ∧ target 0x80000000 = .ring 0 0
    ∧ allowed up.env up.m smb (.ring 0 0) true = true ∧ up.m.isl.clkFail.getLsbD 30 = false ∧ pathUp up.m .smbus = true := by decide
theorem test_wit_reads : rcBits (rLinkCnt .hpa 2) ≠ 0 ∧ Reaches up smb (rLinkCnt .hpa 2) false ∧ Reaches up smb rAlert false
    ∧ Reaches up smb 0x8007 false ∧ Reaches up smb (selData0 (.dir 15)) false ∧ Reaches up smb 0x4006 true
    ∧ Reaches up smb (rSlc 15 5) true :=
  ⟨by decide, reaches_of (by decide), reaches_of (by decide), reaches_of (by decide), reaches_of (by decide), reaches_of (by decide),
    reaches_of (by decide)⟩
/-- The bounds of the histogram shift are 3 and 10. -/
theorem test_wit_settings : Reaches up smb 0x6009 true ∧ fld (3 : Word) 0 4 = 3 ∧ fld (10 : Word) 0 4 = 10 ∧ Reaches up smb 12 true
    ∧ Reaches up smb rEquiv true ∧ Reaches up smb (rDac 7 0xC) true ∧ fld (4 : Word) 0 3 < 5 ∧ (up.m.dac 7).st = .reset
    ∧ Reaches up smb (rLinkCfg .ckl) true :=
  ⟨reaches_of (by decide), by decide, by decide, reaches_of (by decide), reaches_of (by decide), reaches_of (by decide), by decide,
    by decide, reaches_of (by decide)⟩
theorem test_wit_board : Live up ∧ pathUp up.m .smbus = true ∧ up.m.acc.jtagDone = true
    ∧ pathUp (up.m.setAcc fun a => { a with tapIr := 0x20 }) .jtag = true ∧ State.reset.m.alive = false
    ∧ State.reset.m.pins.testSampled = false := ⟨live_up, by decide⟩

/-! ### Witnesses: resets and bring-up -/

theorem test_wit_cold : State.reset.m.pins.coldRstN = false ∧ State.reset.m.pins.jtagHold = false ∧ State.reset.m.err.degraded = false
    ∧ ({ State.reset.m with pins := { Pins.reset with jtagHold := true } } : M).pins.jtagHold = true := by decide
def warm1 (mirror draining : Bool) : Warm := ⟨0, mirror, draining, 0⟩
def upBoot (phase : Nat) (warm : Option Warm) : State := up' fun m => m.setBoot fun b => { b with phase := phase, warm := warm }
theorem test_wit_warm : Live (upBoot 3 none) ∧ (upBoot 3 none).m.boot.relock = false ∧ (upBoot 3 none).m.boot.phase ≠ 8
    ∧ (upBoot 8 (some (warm1 false false))).m.boot.warm = some (warm1 false false) ∧ (warm1 true true).draining = true
    ∧ [HPort.hpa, .hpb].any (fun p => passedBefore up.m p (up.m.mode.gen + 1)) = false := ⟨live_of (by decide), by decide⟩
theorem test_wit_bringup : Live (upBoot 1 none) ∧ (upBoot 1 none).m.boot.stopped = false ∧ (upBoot 7 none).m.boot.phase = 7
    ∧ (∀ l : Lnk, l ≠ .ckl → ((upBoot 5 none).m.link l).st = .active)
    ∧ ((upBoot 5 none).m.setLink .hpa { up.m.link .hpa with st := .down }).link .hpa = { up.m.link .hpa with st := .down } :=
  ⟨live_of (by decide), by decide, by decide, by intro l h; cases l <;> decide, rfl⟩

/-! ### Worked examples -/

/-- A cold reset right after it leaves the device as it was (Table 20.5). -/
theorem test_cold_reset_again : exec .coldReset State.reset = .next State.reset := rfl
/-- The modes at reset read 0x0000_0C61 (Table 14.1). -/
theorem test_modes_at_reset : State.reset.m.modeActive = 0xC61 := by decide
/-- Table 3.2: address A lies in SLC6, set 0x2091, on side 0; address B on side 1. -/
def lineA : Line := 0x0A441230080 >>> 7
def lineB : Line := 0x0A441231080 >>> 7
theorem test_imposition : sliceOf lineA = 6 ∧ sliceOf lineB = 6 ∧ setOf .px2932 lineA = 0x2091 ∧ setOf .sb2916 lineB = 0x2091
    ∧ tagOf lineA = 0x522091 ∧ pa12 lineA = false ∧ pa12 lineB = true ∧ lineIndex lineB = 1 ∧ twinSide lineA = false
    ∧ twinSide lineB = true := by decide
/-- Table 3.11: the RAT of RP-1, and the two lookups of the example. -/
def rat1 : Tab RatEntry :=
  [(0, ⟨0x80000C001FFFFF00, 0x1FFFFFFF⟩), (1, ⟨0x8000100000000000, 0x07FFFFFF⟩), (2, ⟨0x8000200008000000, 0x0FFFFFFF⟩),
    (3, ⟨0x8000080010000000, 0x1FFFFFFF⟩)]
theorem test_rat : ratWinner rat1 0x18000000 = some 3 ∧ ratWinner rat1 (folioOf lineA).toNat = some 2 ∧ (ratEntry rat1 2).earlyAck = true
    ∧ (ratEntry rat1 0).cls = 4
    ∧ ratWinner rat1 0x1FFFFF00 = some 0 ∧ ratWinner rat1 0x20000000 = none := by decide
/-- The registers that the driver locates (the example of chapter 19). -/
theorem test_register_places : target 0x118000 = .direct 0x46000 true ∧ target 0x918000 = .mirror 0x46000 true
    ∧ target 0x3300074 = .alias_ 0x46000 29 true ∧ target 0x118400 = .direct 0x46000 false ∧ target 0x442AC = .direct (0x442AC / 4) true
    ∧ rSlc 6 0 = 0x46000 := by decide
/-- Table 15.6: the quotas of the plan, given the room 18,500; and the carry that epoch 9,001 leaves. -/
theorem test_plan : planTasks 0 (planCosts ⟨0, 1000, [], [1], [true], 1000⟩ [4000]) 18500 = [0, 366, 0, 1, 1, 122]
    ∧ closeCarry 150000 110000 136500 11410 [2000, 1500, 0, 3000] true = [1500, 0, 3000, 2090] := by decide +kernel
/-- Owner numbers of quoins (chapter 18): agent 0x03 on HPA, agent 0x25 on HPB, SMBus, JTAG and the firmware. -/
theorem test_owner_numbers : ownerId { path := .hpa, agent := 3 } = 0x43 ∧ ownerId { path := .hpb, agent := 0x25 } = 0xA5
    ∧ ownerId { path := .smbus } = 0xC0 ∧ ownerId { path := .jtag } = 0x100 ∧ ownerId { path := .jpc } = 0x140 := by decide
/-- The identification registers of stepping 0x01 (R934). -/
theorem test_idcode : idcode Fuses.model = 0x1293256F ∧ idcode { Fuses.model with variant := .sb2916 } = 0x1291656F := by decide
/-- The boot ROM prefers 1-4-4, then 1-1-4 (R587). -/
theorem test_read_mode : (sfdpTaken ⟨true, true, 8, 8, 6, true, []⟩).mode = .r144 ∧ (sfdpTaken ⟨false, true, 8, 8, 6, true, []⟩).mode = .r114
    ∧ (sfdpTaken ⟨false, false, 8, 8, 6, true, []⟩).mode = .r111 := by decide
/-- A command in ring 0 waits while ring 1, of the higher class, has one (R578). -/
theorem test_wit_ring_turn : Live (up' fun m => m.setJpc fun j => { j with tails := [(1, 1)] })
    ∧ ringReady (up' fun m => m.setJpc fun j => { j with tails := [(1, 1)] }).m 1 = true
    ∧ inTurn (up' fun m => m.setJpc fun j => { j with tails := [(1, 1)] }).m (dsc []).ring = false := ⟨live_of (by decide), by decide⟩

end Sys2Proof.Tests
end

section
/-!
O55. A register of a unit that the variant does not have: which words those are, and what an access of one does.
-/

namespace Sys2Proof.Machine

open Sys2Proof

/-! ### The registers of absent units (R11) -/

theorem regAbsent_ckl {v : Variant} {k : Nat} (hk : k < 0x1000) (hv : v.ckl = false) : regAbsent v (0xA000 + k) = true := by
  have hb : (0xA000 + k) / 0x1000 = 0xA := by omega
  simp [regAbsent, hb, hv]

theorem regAbsent_channel {v : Variant} {d k : Nat} (hk : k < 0x1000) (hv : v.dacs ≤ d) (hd : d < 8) :
    regAbsent v (0x20000 + 0x1000 * d + k) = true := by
  have hb : (0x20000 + 0x1000 * d + k) / 0x1000 = 0x20 + d := by omega
  have hlt : 0x20 + d < 0x28 := by omega
  have hne : 0x20 + d ≠ 0xA := by omega
  simp [regAbsent, hb, hne, hlt, hv]

theorem regAbsent_sampler {v : Variant} {k : Nat} (hk : k < 0x1000) (hv : v.sample = false)
    (hs : (4 ≤ k ∧ k ≤ 9) ∨ 0xE ≤ k) : regAbsent v (0x6000 + k) = true := by
  have hb : (0x6000 + k) / 0x1000 = 6 := by omega
  have hm : (0x6000 + k) % 0x1000 = k := by omega
  simpa [regAbsent, hb, hm, hv] using hs

theorem regAbsent_far {v : Variant} {k : Nat} (x : Fin 16) (hv : v.far = false) (h1 : 0x50 ≤ k) (h2 : k ≤ 0x5F) :
    regAbsent v (0x40000 + 0x1000 * x + k) = true := by
  have hb : (0x40000 + 0x1000 * x.val + k) / 0x1000 = 0x40 + x.val := by omega
  have hm : (0x40000 + 0x1000 * x.val + k) % 0x1000 = k := by omega
  have hne : 0x40 + x.val ≠ 0xA ∧ ¬ (0x40 + x.val < 0x28) ∧ 0x40 + x.val ≠ 6 ∧ 0x40 + x.val ≠ 0x12 ∧ 0x40 + x.val ≠ 0x13 := by
    omega
  simp [regAbsent, hb, hm, hne, hv, h1, h2]

/-! ### One access of such a register (R11, R12) -/

/-- The mirror window holds no copy of an absent register. -/
theorem mirrorRead_absent {e : Env} {w : Nat} (m : M) (h : regAbsent e.fuse.variant w = true) : mirrorRead e m w = 0 := by
  simp [mirrorRead, h]

/-- In each of the three windows that name registers, the access ends before it wakes an island or reaches a register. -/
theorem access_absent {e : Env} {m : M} {a : Acc} {addr : Word} {w : Nat} {write own : Bool} (v : Word)
    (h : regAbsent e.fuse.variant w = true)
    (ht : target addr = .direct w own ∨ target addr = .mirror w own ∨ ∃ b, target addr = .alias_ w b own)
    (ha : allowed e m a (target addr) write = true) : access e m a addr write v = (returning m 0, .done) := by
  simp only [access, ha, Bool.not_true, Bool.false_eq_true, if_false]
  rcases ht with ht | ht | ⟨b, ht⟩
  case inl => simp [ht, h, plainEnd, returning]
  case inr.inl => simp [ht, mirrorRead_absent m h, plainEnd, returning]
  case inr.inr => simp [ht, h, plainEnd, returning]

/-! ### The commands that are one access -/

theorem accessRow_live {s : State} {a : Acc} (h : Live s) (hp : pathUp s.m a.path = true) (addr : Word) (write : Bool) (v : Word) :
    accessRow s a addr write v = .next (s.applied (access s.env s.m a addr write v).1) := by
  simp [accessRow, runSettings_live h, hp]

theorem writeRow_live {s : State} {a : Acc} (h : Live s) (hp : pathUp s.m a.path = true) (addr v : Word) :
    writeRow s a addr v = .next (s.applied (fin s.env (access s.env s.m a addr true v).1)) := by
  simp [writeRow, runSettings_live h, hp]

theorem exec_rcRegisterRead (s : State) (a : Acc) (addr : Word) : exec (.rcRegisterRead a addr) s = accessRow s a addr false 0 := rfl
theorem exec_regWrite (s : State) (a : Acc) (addr v : Word) : exec (.regWrite a addr v) s = writeRow s a addr v := rfl
theorem exec_bitAliasWrite {s : State} {addr : Word} {w b : Nat} {own : Bool} (ht : target addr = .alias_ w b own) (a : Acc)
    (v : Word) : exec (.bitAliasWrite a addr v) s = writeRow s a addr v := by
  change execBitAliasWrite a addr v s = _
  simp [execBitAliasWrite, ht]

/-- Settles O55: an access of an absent register ends in `plainEnd` in every window, and a command that is one access hands that on. -/
theorem absentRegisters : Obligations.AbsentRegisters := by
  refine ⟨?window, ?units, ?commands⟩
  case window => exact fun e m a addr v w write own h ht ha => access_absent v h ht ha
  case units =>
    exact fun v k hk => ⟨regAbsent_ckl hk, fun _ => regAbsent_channel hk, regAbsent_sampler hk, regAbsent_far⟩
  case commands =>
    intro s a addr v w b own hl hp h
    have h' : regAbsent s.env.fuse.variant w = true := h
    refine ⟨fun ht ha => ?_, fun ht ha => ?_, fun ht ha => ?_⟩
    · rw [exec_regWrite, writeRow_live hl hp, access_absent v h' (.inl ht) ha]
    · rw [exec_bitAliasWrite ht, writeRow_live hl hp, access_absent v h' (.inr (.inr ⟨b, ht⟩)) ha]
    · rw [exec_rcRegisterRead, accessRow_live hl hp, access_absent 0 h' (.inl ht) ha]

end Sys2Proof.Machine
end

section
/-!
O57. A misaligned configuration request (R388). At its port it is answered ERR CFG_ALIGN in every state. The command as a whole also
serves what hold queues have released, and that rewrites the table of the ports: the table stays as it is where it is in canonical form,
and there the statement holds; where an entry spells out its default, that entry goes, and there it fails.
-/

namespace Sys2Proof.Machine

open Sys2Proof

/-! ### Writing back what a table reads -/

theorem Tab.put_get {α : Type} [DecidableEq α] {d : Nat → α} {t : Tab α} (ht : Tab.wf d t = true) (k : Nat) :
    Tab.put d t k (Tab.get d t k) = t := by
  refine Tab.ext (Tab.wf_put ht) ht fun j => ?_
  rw [Tab.get_put]
  split
  case isTrue hj => rw [hj]
  case isFalse => rfl

theorem M.setPort_port {m : M} (hm : Tab.wf (fun _ => PortSt.reset) m.ports = true) (p : HPort) : m.setPort p (m.port p) = m := by
  unfold M.setPort M.port
  rw [Tab.put_get hm]

/-- With nothing to serve, each port is written back as it is (R276). -/
theorem serveReady_of_noneReady {s : State} (h : NoneReady s) (e : Env) :
    serveReady e s.m = (s.m.setPort .hpa (s.m.port .hpa)).setPort .hpb (s.m.port .hpb) := by
  obtain ⟨ha, hb⟩ := h
  have hput : ∀ p, (s.m.port p).cfgReady = [] → { s.m.port p with cfgReady := [] } = s.m.port p := fun p hp => by rw [← hp]
  have hother : (s.m.setPort .hpa (s.m.port .hpa)).port .hpb = s.m.port .hpb := Tab.get_put_other (by decide)
  simp only [serveReady, List.foldl_cons, List.foldl_nil, ha, hput .hpa ha, hother, hb, hput .hpb hb]

theorem serveReady_of_canonical {s : State} (h : NoneReady s) (hw : Tab.wf (fun _ => PortSt.reset) s.m.ports = true) (e : Env) :
    serveReady e s.m = s.m := by
  rw [serveReady_of_noneReady h, M.setPort_port hw, M.setPort_port hw]

/-! ### The request at its port -/

theorem Op.cfg_iff {op : Op} : op.cfg = true ↔ op = .cfgRd ∨ op = .cfgWr := by
  cases op <;> simp [Op.cfg]

theorem req_slots_of_cfg (s : State) (h : ReqHdr) {op : Op} (ho : op.cfg = true) (mask : Mask) (data : Data) :
    (s.req h op mask data).slots = 0 := by
  rcases Op.cfg_iff.mp ho with rfl | rfl <;> rfl

theorem fieldError_misaligned {h : ReqHdr} {op : Op} (ho : op.cfg = true) (hx : h.cfgAddr.extractLsb' 0 2 ≠ 0) :
    fieldError h op = some 0x10 := by
  rcases Op.cfg_iff.mp ho with rfl | rfl <;> exact if_pos (bne_iff_ne.mpr hx)

/-- The port answers such a request without serving it, whatever `f` would serve it with. -/
theorem request_misaligned {s : State} {h : ReqHdr} {op : Op} {mask : Mask} (ho : op.cfg = true) (hf : Formed s h op mask)
    (hm : (s.m.port h.port).agentMap.getLsbD (h.agent.toNat % 32) = true) (hr : hdrReserved h op = false)
    (hx : h.cfgAddr.extractLsb' 0 2 ≠ 0) (data : Data) (f : M → Req → M) :
    request s.env (s.received h.port.lnk 0 0) h op mask data f =
      portErr s.env (s.recorded h op mask data 0) (s.req h op mask data) 0x10 := by
  obtain ⟨⟨hact, -⟩, hport, htag, hmask⟩ := hf
  have hq : (s.received h.port.lnk 0 0).port h.port = s.m.port h.port := rfl
  simp only [request, received_link_st, hq, hact, hport, htag, hmask, hm, hr, ho, fieldError_misaligned ho hx, bne_self_eq_false,
    Bool.not_true, Bool.false_and, Bool.and_false, Bool.false_eq_true, if_true, if_false, State.recorded]
  rfl

/-! ### The two commands -/

theorem exec_cfgRd_live {s : State} (hl : Live s) (h : ReqHdr) :
    exec (.cfgRd h) s = .next (s.applied (fin s.env (delivered s.env (serveReady s.env s.m) h.port.lnk 0 0 fun m =>
      request s.env m h .cfgRd 0 0 (serveRead s.env h.cfgAddr)))) := by
  change execCfgRd h s = _
  unfold execCfgRd
  rw [runSettings_live hl]
theorem exec_cfgWr_live {s : State} (hl : Live s) (h : ReqHdr) :
    exec (.cfgWr h) s = .next (s.applied (fin s.env (delivered s.env (serveReady s.env s.m) h.port.lnk 0 0 fun m =>
      request s.env m h .cfgWr 0 0 (serveWrite s.env h.cfgAddr h.cfgData)))) := by
  change execCfgWr h s = _
  unfold execCfgWr
  rw [runSettings_live hl]

/-- What either command does with such a request, where the table of the ports is in canonical form. -/
theorem delivered_misaligned {s : State} {h : ReqHdr} {op : Op} (hn : NoneReady s)
    (hw : Tab.wf (fun _ => PortSt.reset) s.m.ports = true) (ho : op.cfg = true) (hf : Formed s h op 0)
    (hm : (s.m.port h.port).agentMap.getLsbD (h.agent.toNat % 32) = true) (hr : hdrReserved h op = false)
    (hx : h.cfgAddr.extractLsb' 0 2 ≠ 0) (f : M → Req → M) :
    delivered s.env (serveReady s.env s.m) h.port.lnk 0 0 (fun m => request s.env m h op 0 0 f) =
      portErr s.env (s.recorded h op 0 0 0) (s.req h op 0 0) 0x10 := by
  have hbuf : Buffered s h.port.lnk 0 0 := req_slots_of_cfg s h ho 0 0 ▸ hf.1
  rw [serveReady_of_canonical hn hw, delivered_of_buffered hbuf, request_misaligned ho hf hm hr hx]

/-- R388 over every state whose table of the ports is in canonical form, as reset and every write leave it. -/
theorem misalignedConfig_of_canonical {s : State} {h : ReqHdr} (hl : Live s) (hn : NoneReady s)
    (hw : Tab.wf (fun _ => PortSt.reset) s.m.ports = true)
    (hm : (s.m.port h.port).agentMap.getLsbD (h.agent.toNat % 32) = true) (hx : h.cfgAddr.extractLsb' 0 2 ≠ 0) :
    (Formed s h .cfgRd 0 → hdrReserved h .cfgRd = false → exec (.cfgRd h) s = .next (s.applied (fin s.env
      (portErr s.env (s.recorded h .cfgRd 0 0 0) (s.req h .cfgRd 0 0) 0x10))))
    ∧ (Formed s h .cfgWr 0 → hdrReserved h .cfgWr = false → exec (.cfgWr h) s = .next (s.applied (fin s.env
      (portErr s.env (s.recorded h .cfgWr 0 0 0) (s.req h .cfgWr 0 0) 0x10)))) := by
  constructor
  case left => intro hf hr; rw [exec_cfgRd_live hl, delivered_misaligned hn hw rfl hf hm hr hx]
  case right => intro hf hr; rw [exec_cfgWr_live hl, delivered_misaligned hn hw rfl hf hm hr hx]

@[simp] theorem applied_ports (s : State) (m : M) : (s.applied m).m.ports = m.ports := rfl

/-! ### A state outside canonical form -/

/-- A running device with HPA ACTIVE and HPB as reset leaves it, in whose table of the ports HPB is listed with that reset value. -/
def spelledOutPort : State :=
  { State.reset with m := { State.reset.m with
    pins := { Pins.reset with coldRstN := true }
    ports := [(HPort.hpb.n, .reset)]
    links := [(Lnk.hpa.n, { LinkSt.reset with st := .active, rxFree := advertised .hpa })] } }
/-- A CFG_RD on HPA of the address 3. -/
def misalignedRead : ReqHdr := { port := .hpa, tag := 5, agent := 1, line := 3 }

theorem spelledOutPort_live : Live spelledOutPort := ⟨by decide, by decide⟩
theorem spelledOutPort_noneReady : NoneReady spelledOutPort := ⟨by decide, by decide⟩
theorem misalignedRead_formed : Formed spelledOutPort misalignedRead .cfgRd 0 :=
  ⟨⟨by decide, .inr (by decide)⟩, by decide, by decide, by decide⟩

/-- The command drops the entry when it writes HPB back. -/
theorem spelledOutPort_exec_ports :
    (fin spelledOutPort.env (delivered spelledOutPort.env (serveReady spelledOutPort.env spelledOutPort.m) misalignedRead.port.lnk 0 0
      fun m => request spelledOutPort.env m misalignedRead .cfgRd 0 0 (serveRead spelledOutPort.env misalignedRead.cfgAddr))).ports = [] := by
  decide +kernel

/-- The answer alone touches HPA only. -/
theorem spelledOutPort_answer_ports :
    (fin spelledOutPort.env (portErr spelledOutPort.env (spelledOutPort.recorded misalignedRead .cfgRd 0 0 0)
      (spelledOutPort.req misalignedRead .cfgRd 0 0) 0x10)).ports = [(HPort.hpb.n, .reset)] := by
  decide +kernel

/-- Refutes O57: the statement ranges over states whose table of the ports lists an entry at its default. In `spelledOutPort` the command
drops that entry, and the state that the statement gives keeps it. `misalignedConfig_of_canonical` says that nothing else is against
it. -/
theorem not_misalignedConfig : ¬ Obligations.MisalignedConfig := by
  intro h
  obtain ⟨hrd, -⟩ := h spelledOutPort misalignedRead spelledOutPort_live spelledOutPort_noneReady (by decide) (by decide)
  have heq := hrd misalignedRead_formed (by decide)
  rw [exec_cfgRd_live spelledOutPort_live] at heq
  have hports := congrArg (fun s : State => s.m.ports) (Host.Outcome.next.inj heq)
  simp only [applied_ports, spelledOutPort_exec_ports, spelledOutPort_answer_ports] at hports
  exact absurd hports (by decide)

end Sys2Proof.Machine
end

section
/-!
O60. PORT_UNFENCE of an agent whose port is fenced (R441). The block code PORT_STATE holds, so the command ends as every taken command
does against which one block code holds: with a STATE_CONFLICT that names it.
-/

namespace Sys2Proof.Machine

open Sys2Proof

/-! ### A taken command against which one block code holds (R615, R617) -/

/-- RECOVERY adds no block code of its own, since a command that is taken there is one of R593. -/
theorem refusal_conflict {s : State} {d : Desc} {c : Cmd} {m : M} (hm : m.jpc.fw = s.m.jpc.fw)
    (h : Taken s d c.any c.early c.recovery) (ha : c.absent = false) (hb : c.badArg = false) {b : Nat} (hk : c.blocks = [b]) :
    refusal m d c (privileged s.m d) = some (0x13, b) := by
  obtain ⟨-, hf, hp, -, -, -, -, -, hflags, hresv⟩ := h
  have hclass : (!c.any && !privileged s.m d) = false := by rcases hp with h | h <;> simp [h]
  have hrec : (m.jpc.fw == .recovery && !c.recovery) = false := by
    rw [hm]; rcases hf with ⟨hf, -⟩ | ⟨hf, hr, -⟩ <;> simp [*]
  simp [refusal, hclass, hrec, ha, hb, hk, hflags, hresv]

theorem command_conflict {s : State} {d : Desc} {c : Cmd} (h : Taken s d c.any c.early c.recovery) (ha : c.absent = false)
    (hb : c.badArg = false) {b : Nat} (hk : c.blocks = [b]) (f : M → M × BitVec 448) :
    command s.env s.m d c f = postRsp s.env (s.took d) d c.opcode 0x13 (privileged s.m d) (conflictResult (s.took d) b) := by
  rw [command_refused h (refusal_conflict (took_jpc_fw s d) h ha hb hk)]
  rfl

/-! ### PORT_UNFENCE of kind agent -/

/-- What the command is checked for (R680, R441). -/
def unfenceAgentCmd (s : State) (d : Desc) : Cmd where
  opcode := 0x0D02
  badArg := decide (64 ≤ descArg d 10 1) || descArg d 8 1 != 1 || !descOnly d [(8, 1), (10, 1)]
  blocks := if linkFenced s.env s.m (agentPort (BitVec.ofNat 6 (descArg d 10 1))).lnk then [0xA] else []

/-- The fence of one agent ends. -/
def unfenceAgent (e : Env) (m : M) (a : Agent) : M :=
  wr e m (fenceReg a) (rd e m (fenceReg a) &&& ~~~((1 : Word) <<< (a.toNat % 32)))

theorem exec_portUnfenceAgent_live {s : State} (hl : Live s) (d : Desc) :
    exec (.portUnfenceAgent d) s = .next (s.after (command s.env s.m d (unfenceAgentCmd s d) fun m =>
      (unfenceAgent s.env m (BitVec.ofNat 6 (descArg d 10 1)), 0))) := by
  change execPortUnfenceAgent d s = _
  unfold execPortUnfenceAgent
  rw [act_live hl]
  rfl

theorem unfenceAgentCmd_badArg {s : State} {d : Desc} {a : Agent} (hd : descOnly d [(8, 1), (10, 1)] = true)
    (hkind : descArg d 8 1 = 1) (hagent : descArg d 10 1 = a.toNat) : (unfenceAgentCmd s d).badArg = false := by
  have hlt : ¬ 64 ≤ a.toNat := by have := a.isLt; omega
  simp [unfenceAgentCmd, hd, hkind, hagent, hlt]

theorem unfenceAgentCmd_blocks_of_fenced {s : State} {d : Desc} {a : Agent} (hagent : descArg d 10 1 = a.toNat)
    (hfence : linkFenced s.env s.m (agentPort a).lnk = true) : (unfenceAgentCmd s d).blocks = [0xA] := by
  have ha : BitVec.ofNat 6 (descArg d 10 1) = a := by rw [hagent, BitVec.ofNat_toNat, BitVec.setWidth_eq]
  simp only [unfenceAgentCmd, ha, hfence, if_true]

/-- Settles O60: the fence of the agent's port is the one block code that holds. -/
theorem unfenceOfFencedPort : Obligations.UnfenceOfFencedPort := by
  intro s d a h hd hkind hagent hfence
  have hlive : Live s := h.1
  have hargs := unfenceAgentCmd_badArg (s := s) hd hkind hagent
  have hblocks := unfenceAgentCmd_blocks_of_fenced hagent hfence
  rw [exec_portUnfenceAgent_live hlive, command_conflict (c := unfenceAgentCmd s d) h rfl hargs hblocks]
  rfl

end Sys2Proof.Machine
end

section
/-!
O59. ADOPT of kind REBUILT (R539, R653). PAIR_STATE is the only block code that the command checks for, and it holds just where the
device is not in ADOPTED with rebuild_pending 1: there the command ends in the conflict, elsewhere it completes at once.
-/

namespace Sys2Proof.Machine

open Sys2Proof

/-- ADOPTED with rebuild_pending 1, where the command is legal. -/
def RebuildOpen (s : State) : Prop := s.m.twin.st = .adopted ∧ s.m.twin.rebuildPending = true

/-- What the command is checked for (R653). -/
def adoptRebuiltCmd (s : State) (d : Desc) : Cmd where
  opcode := 0x0603
  absent := !s.fuse.variant.ckl
  badArg := descArg d 8 1 != 1 || !descOnly d [(8, 1)]
  blocks := if s.m.twin.st == .adopted && s.m.twin.rebuildPending then [] else [8]

theorem exec_adoptRebuilt_live {s : State} (hl : Live s) (d : Desc) :
    exec (.adoptRebuilt d) s = .next (s.after (command s.env s.m d (adoptRebuiltCmd s d) fun m =>
      (m.setTwin fun t => { t with rebuildPending := false }, 0))) := by
  change execAdoptRebuilt d s = _
  unfold execAdoptRebuilt
  rw [act_live hl]
  rfl

theorem adoptRebuiltCmd_absent {s : State} (d : Desc) (hv : s.fuse.variant.ckl = true) : (adoptRebuiltCmd s d).absent = false := by
  simp [adoptRebuiltCmd, hv]

theorem adoptRebuiltCmd_badArg (s : State) {d : Desc} (hd : descOnly d [(8, 1)] = true) (hkind : descArg d 8 1 = 1) :
    (adoptRebuiltCmd s d).badArg = false := by
  simp [adoptRebuiltCmd, hd, hkind]

theorem adoptRebuiltCmd_blocks_of_open {s : State} (d : Desc) (h : RebuildOpen s) : (adoptRebuiltCmd s d).blocks = [] := by
  obtain ⟨hst, hpending⟩ := h
  simp [adoptRebuiltCmd, hst, hpending]

theorem adoptRebuiltCmd_blocks_of_not_open {s : State} (d : Desc) (h : ¬ RebuildOpen s) : (adoptRebuiltCmd s d).blocks = [8] := by
  have hcheck : (s.m.twin.st == .adopted && s.m.twin.rebuildPending) ≠ true := by
    rwa [ne_eq, Bool.and_eq_true, beq_iff_eq]
  exact if_neg hcheck

/-- Settles O59: the pair state decides whether the block code PAIR_STATE holds, and no other check can fail. -/
theorem adoptRebuilt : Obligations.AdoptRebuilt := by
  intro s d h hv hd hkind
  have hlive : Live s := h.1
  have hunit := adoptRebuiltCmd_absent d hv
  have hargs := adoptRebuiltCmd_badArg s hd hkind
  rw [exec_adoptRebuilt_live hlive]
  constructor
  case left =>
    intro hopen
    rw [command_taken (c := adoptRebuiltCmd s d) h hunit hargs (adoptRebuiltCmd_blocks_of_open d hopen) rfl rfl]
    rfl
  case right =>
    intro hclosed
    rw [command_conflict (c := adoptRebuiltCmd s d) h hunit hargs (adoptRebuiltCmd_blocks_of_not_open d hclosed)]
    rfl

end Sys2Proof.Machine
end

section
/-!
O58. The resets free the quoins (R847). No quoin is listed after a cold reset, nor after a warm reset that has finished; an unlisted
quoin is free, and the two registers of the stale bits read them all as 0.
-/

namespace Sys2Proof.Machine

open Sys2Proof

/-! ### A machine that lists no quoin -/

theorem M.quoin_of_quo_nil {m : M} (h : m.quo = []) (q : Nat) : m.quoin q = .free := by
  simp [M.quoin, h]

/-- The bits that a register of the stale quoins reads as. -/
theorem regView_quoStale (e : Env) (m : M) (p : Path) {k : Nat} (hk : k = 16 ∨ k = 17) :
    regView e m p k = (List.range 32).foldl (fun w q =>
      if (m.quoin (32 * (k - 16) + q)).stale then w ||| ((1 : Word) <<< q) else w) 0 := by
  rcases hk with rfl | rfl <;> rfl

theorem regView_quoStale_of_quo_nil {m : M} (h : m.quo = []) (e : Env) (p : Path) {k : Nat} (hk : k = 16 ∨ k = 17) :
    regView e m p k = 0 := by
  have hstale : ∀ q, (m.quoin q).stale = false := fun q => by rw [M.quoin_of_quo_nil h]; rfl
  rw [regView_quoStale e m p hk]
  simp only [hstale, Bool.false_eq_true, if_false, List.foldl_fixed]

/-! ### The resets list none -/

theorem foldl_quo {β : Type} {f : M → β → M} (h : ∀ m x, (f m x).quo = m.quo) (xs : List β) (m : M) :
    (xs.foldl f m).quo = m.quo := by
  induction xs generalizing m with
  | nil => rfl
  | cons x xs ih => rw [List.foldl_cons, ih, h]

theorem coldState_quo (f : Fuses) (m : M) : (coldState f m).quo = [] := rfl

theorem warmState_quo (e : Env) (m : M) : (warmState e m).quo = [] := by
  unfold warmState
  rw [foldl_quo, foldl_quo]
  case h => exact fun _ _ => rfl
  case h => intro x d; split <;> rfl
  rfl

/-- `s` once a warm reset of it has finished, with `m` what the machine was when it did. -/
def State.warmed (s : State) (m : M) (w : Warm) : State :=
  { s with cfg := (finishWarm s.env m w).1, m := (finishWarm s.env m w).2 }

theorem warmed_quo (s : State) (m : M) (w : Warm) : (s.warmed m w).m.quo = [] := warmState_quo s.env _

/-! ### The commands at which a reset resets the device -/

theorem exec_coldReset (s : State) :
    exec .coldReset s = .next { s with cfg := Cfg.reset s.fuse.variant, m := coldState s.fuse s.m } := rfl

theorem exec_warmReset_early {s : State} (hl : Live s) (hr : s.m.boot.relock = false) (hw : s.m.boot.warm = none)
    (hp : s.m.boot.phase ≠ 8) : ∃ w, exec .warmReset s = .next (s.warmed s.m w) := by
  change ∃ w, execWarmReset s = _
  refine ⟨⟨s.m.now, s.m.modeBit mMirror, false, 0⟩, ?_⟩
  simp [execWarmReset, runCfg_live hl, hl.1, hr, hw, hp, State.withM, State.warmed, State.env]

theorem exec_warmResponseWait_unmirrored {s : State} {w : Warm} (hl : Live s) (hw : s.m.boot.warm = some w)
    (hd : w.draining = false) (hm : w.mirror = false) : ∃ m, exec .warmResponseWait s = .next (s.warmed m w) := by
  change ∃ m, execWarmResponseWait s = _
  simp only [execWarmResponseWait, runCfg_live hl, hw, hl.1, hd, hm, Bool.not_true, Bool.or_self, Bool.false_eq_true, if_false]
  exact ⟨_, rfl⟩

theorem exec_warmDrainEnd_draining {s : State} {w : Warm} (hl : Live s) (hw : s.m.boot.warm = some w) (hd : w.draining = true) :
    ∃ m, exec .warmDrainEnd s = .next (s.warmed m w) := by
  change ∃ m, execWarmDrainEnd s = _
  simp only [execWarmDrainEnd, runCfg_live hl, hw, hl.1, hd, Bool.not_true, Bool.or_self, Bool.false_eq_true, if_false]
  exact ⟨_, rfl⟩

/-- Settles O58: each of the four commands ends in a state that lists no quoin. -/
theorem resetsFreeQuoins : Obligations.ResetsFreeQuoins := by
  intro s c w h
  have hquo : ∃ t, exec c s = .next t ∧ t.m.quo = [] := by
    rcases h with rfl | ⟨hl, rfl, hr, hw, hp⟩ | ⟨hl, rfl, hw, hd, hm⟩ | ⟨hl, rfl, hw, hd⟩
    · exact ⟨_, exec_coldReset s, coldState_quo s.fuse s.m⟩
    · obtain ⟨w, ht⟩ := exec_warmReset_early hl hr hw hp
      exact ⟨_, ht, warmed_quo s s.m w⟩
    · obtain ⟨m, ht⟩ := exec_warmResponseWait_unmirrored hl hw hd hm
      exact ⟨_, ht, warmed_quo s m w⟩
    · obtain ⟨m, ht⟩ := exec_warmDrainEnd_draining hl hw hd
      exact ⟨_, ht, warmed_quo s m w⟩
  obtain ⟨t, ht, hnil⟩ := hquo
  exact ⟨t, ht, fun q p => ⟨M.quoin_of_quo_nil hnil q, rfl, rfl, regView_quoStale_of_quo_nil hnil t.env p (.inl rfl),
    regView_quoStale_of_quo_nil hnil t.env p (.inr rfl)⟩⟩

end Sys2Proof.Machine
end

section
/-!
O56. A write through the mirror window (R821). The access returns 0 and changes nothing, on every path, and a port whose in-band request
makes it answers CMP. As for O57, the command as a whole also serves what hold queues have released and so rewrites the table of the
ports: the statement of the in-band path holds where that table is in canonical form, and fails where an entry spells out its default.
-/

namespace Sys2Proof.Machine

open Sys2Proof

/-! ### The access on any path -/

theorem access_not_allowed {e : Env} {m : M} {a : Acc} {addr : Word} {write : Bool} (v : Word)
    (ha : allowed e m a (target addr) write = false) : access e m a addr write v = (m, .denied) := by
  simp [access, ha]

theorem access_mirror_write {e : Env} {m : M} {a : Acc} {addr : Word} {w : Nat} {own : Bool} (v : Word)
    (ht : target addr = .mirror w own) (ha : allowed e m a (target addr) true = true) :
    access e m a addr true v = (returning m 0, .done) := by
  simp only [access, ha, Bool.not_true, Bool.false_eq_true, if_false]
  simp [ht, plainEnd, returning]

/-- R821 on every path. -/
theorem mirrorWindowWrite_every_path (e : Env) (m : M) (a : Acc) (addr v : Word) (w : Nat) (own : Bool) (ht : target addr = .mirror w own) :
    (allowed e m a (target addr) true = true → access e m a addr true v = (returning m 0, .done))
    ∧ (allowed e m a (target addr) true = false → access e m a addr true v = (m, .denied)) :=
  ⟨access_mirror_write v ht, access_not_allowed v⟩

theorem serveWrite_mirror {e : Env} {m : M} {r : Req} {addr : Word} {w : Nat} {own : Bool} (v : Word)
    (ht : target addr = .mirror w own) (ha : allowed e m (reqAcc r) (target addr) true = true) :
    serveWrite e addr v m r = respondCfg e (returning m 0) r.port r.tag (.cmp r.tag false) r.silent := by
  rw [serveWrite, access_mirror_write v ht ha]

/-! ### The request at its port -/

theorem fieldError_aligned {h : ReqHdr} {op : Op} (ho : op.cfg = true) (hx : h.cfgAddr.extractLsb' 0 2 = 0) :
    fieldError h op = none := by
  rcases Op.cfg_iff.mp ho with rfl | rfl <;> exact if_neg (by simp [hx])

/-- Recording a request leaves the epochs of the agents of its port as they are. -/
theorem recorded_epochsOf (s : State) (h : ReqHdr) (op : Op) (mask : Mask) (data : Data) (n : Nat) (a : Agent) :
    ((s.recorded h op mask data n).port h.port).epochsOf a = (s.m.port h.port).epochsOf a := by
  obtain ⟨⟨c, g, x, hr⟩, -⟩ := recorded_shape s h op mask data n
  rw [hr]
  simp only [M.port, M.setPort, Tab.get_put_same]
  rfl

/-- An aligned configuration request of a mapped agent that holds nothing back is recorded and served (R276, R426). -/
theorem request_aligned {s : State} {h : ReqHdr} {op : Op} {mask : Mask} (ho : op.cfg = true) (hf : Formed s h op mask)
    (hold : ((s.m.port h.port).epochsOf h.agent).hold = [])
    (hm : (s.m.port h.port).agentMap.getLsbD (h.agent.toNat % 32) = true) (hr : hdrReserved h op = false)
    (hx : h.cfgAddr.extractLsb' 0 2 = 0) (data : Data) (f : M → Req → M) :
    request s.env (s.received h.port.lnk 0 0) h op mask data f =
      f (s.recorded h op mask data 0) (s.req h op mask data) := by
  obtain ⟨⟨hact, -⟩, hport, htag, hmask⟩ := hf
  have hq : (s.received h.port.lnk 0 0).port h.port = s.m.port h.port := rfl
  have hempty : (((s.recorded h op mask data 0).port h.port).epochsOf h.agent).hold.isEmpty = true := by
    rw [recorded_epochsOf, hold]; rfl
  simp only [State.recorded, ho, if_true] at hempty ⊢
  simp only [request, received_link_st, hq, hact, hport, htag, hmask, hm, hr, ho, fieldError_aligned ho hx, bne_self_eq_false,
    Bool.not_true, Bool.false_and, Bool.and_false, Bool.false_eq_true, if_true, if_false]
  exact if_pos hempty

/-! ### The command -/

/-- R821 on the in-band path, over every state whose table of the ports is in canonical form, as reset and every write leave it. -/
theorem mirrorWindowWrite_of_canonical {s : State} {h : ReqHdr} {w : Nat} {own : Bool} (hl : Live s) (hn : NoneReady s)
    (hw : Tab.wf (fun _ => PortSt.reset) s.m.ports = true) (hf : Formed s h .cfgWr 0)
    (hold : ((s.m.port h.port).epochsOf h.agent).hold = [])
    (hm : (s.m.port h.port).agentMap.getLsbD (h.agent.toNat % 32) = true) (hr : hdrReserved h .cfgWr = false)
    (hx : h.cfgAddr.extractLsb' 0 2 = 0) (ht : target h.cfgAddr = .mirror w own)
    (ha : allowed s.env (s.recorded h .cfgWr 0 0 0) (reqAcc (s.req h .cfgWr 0 0)) (target h.cfgAddr) true = true) :
    exec (.cfgWr h) s = .next (s.applied (fin s.env
      (respondCfg s.env (returning (s.recorded h .cfgWr 0 0 0) 0) h.port h.tag (.cmp h.tag false) false))) := by
  have hbuf : Buffered s h.port.lnk 0 0 := req_slots_of_cfg s h (op := .cfgWr) rfl 0 0 ▸ hf.1
  rw [exec_cfgWr_live hl, serveReady_of_canonical hn hw, delivered_of_buffered hbuf, request_aligned rfl hf hold hm hr hx,
    serveWrite_mirror h.cfgData ht ha]
  rfl

/-! ### A state outside canonical form -/

/-- A privileged CFG_WR on HPA of the first word of the mirror window. -/
def mirrorWrite : ReqHdr := { port := .hpa, tag := 5, agent := 1, priv := true, line := 0x800000 }
/-- `spelledOutPort` once HPA has recorded it. -/
def mirrorWriteRecorded : M := spelledOutPort.recorded mirrorWrite .cfgWr 0 0 0

theorem mirrorWrite_target : target mirrorWrite.cfgAddr = .mirror 0 true := by decide
theorem mirrorWrite_formed : Formed spelledOutPort mirrorWrite .cfgWr 0 :=
  ⟨⟨by decide, .inr (by decide)⟩, by decide, by decide, by decide⟩
theorem mirrorWrite_allowed : allowed spelledOutPort.env mirrorWriteRecorded (reqAcc (spelledOutPort.req mirrorWrite .cfgWr 0 0))
    (target mirrorWrite.cfgAddr) true = true := rfl

/-- The command drops the entry of HPB when it writes HPB back. -/
theorem spelledOutPort_mirrorWrite_ports :
    (fin spelledOutPort.env (delivered spelledOutPort.env (serveReady spelledOutPort.env spelledOutPort.m) mirrorWrite.port.lnk 0 0
      fun m => request spelledOutPort.env m mirrorWrite .cfgWr 0 0
        (serveWrite spelledOutPort.env mirrorWrite.cfgAddr mirrorWrite.cfgData))).ports = [] := by
  decide +kernel

/-- The answer CMP alone touches HPA only. -/
theorem spelledOutPort_cmp_ports :
    (fin spelledOutPort.env (respondCfg spelledOutPort.env (returning mirrorWriteRecorded 0) mirrorWrite.port mirrorWrite.tag
      (.cmp mirrorWrite.tag false) false)).ports = [(HPort.hpb.n, .reset)] := by
  decide +kernel

/-- Refutes O56: its part about every path holds (`mirrorWindowWrite_every_path`), but its in-band part ranges over states whose
table of the ports lists an entry at its default. In `spelledOutPort` the command drops that entry, and the state that the statement
gives keeps it. `mirrorWindowWrite_of_canonical` says that nothing else is against it. -/
theorem not_mirrorWindowWrites : ¬ Obligations.MirrorWindowWrites := by
  intro h
  obtain ⟨-, hinband⟩ := h
  have heq := hinband spelledOutPort mirrorWrite mirrorWriteRecorded 0 true spelledOutPort_live spelledOutPort_noneReady
    mirrorWrite_formed (by decide) (by decide) (by decide) (by decide) mirrorWrite_target rfl mirrorWrite_allowed
  rw [exec_cfgWr_live spelledOutPort_live] at heq
  have hports := congrArg (fun s : State => s.m.ports) (Host.Outcome.next.inj heq)
  simp only [applied_ports, spelledOutPort_mirrorWrite_ports, spelledOutPort_cmp_ports] at hports
  exact absurd hports (by decide)

end Sys2Proof.Machine
end

section
/-!
O1 to O4. What every command has in common: what it may write (the machine alone, the settings too, or even in manufacturing test), and
whether a device that is held takes it. Each command is put in one of five groups once; what all commands of a group do follows from
the function that runs them.
-/

namespace Sys2Proof.Machine

open Sys2Proof

/-! ### The groups of commands -/

/-- How a command may act. -/
inductive RowGroup where
  | machine    -- on a running device, on everything but the settings
  | registers  -- the same, but it may write settings by way of their registers
  | settings   -- on a running device, on the settings too
  | tap        -- also on a device that is held (R932)
  | always     -- also in manufacturing test (R919)
  deriving DecidableEq

/-- The group of a command. -/
def rowGroup : Instr → RowGroup
  | .coldReset | .coldRstNRise _ _ _ | .testEnChange _ | .vddAonLoss => .always
  | .tapReset | .jtagExtest | .jtagHighz | .jtagClamp | .jtagRegAccess _ => .tap
  | .ratWrite _ | .inkGrant _ | .inkFloor _ | .patrolCfg _ | .sampleCfg _ | .logPolicy _ | .appCfg _ | .epochBoundary _ => .settings
  | .warmReset | .warmResponseWait | .warmDrainEnd => .settings
  | .cfgRd _ | .cfgWr _ | .smbusRegRead _ _ | .smbusRegWrite _ _ _ _ => .registers
  | .quoRead _ _ | .quoWrite _ _ _ | .quoBreak _ _ | .mbxDoorbell _ _ _ | .jpcCtlRestart _ | .jpcCtlHalt _ | .prfSnapStart _ => .registers
  | .pmcLoRead _ _ | .pmcHiRead _ _ | .pmcLoWrite _ _ _ | .rcRegisterRead _ _ | .errAlertRead _ | .selectorData0Read _ _ => .registers
  | .selectorWrite _ _ _ | .imposeResultRead _ _ | .histShiftWrite _ _ | .linkCfgThresholdWrite _ _ _ => .registers
  | .linkCfgHoldDownWrite _ _ _ | .dacTimingWrite _ _ _ _ | .appPolicyWrite _ _ | .memportEquivWrite _ _ => .registers
  | .bitAliasWrite _ _ _ | .mirrorWindowRead _ _ | .ringWindowAccess _ _ _ _ | .regWrite _ _ _ => .registers
  | _ => .machine

/-- `o` is what a command answers that writes the machine alone. -/
def OnMachine (s : State) (o : Host.Outcome State Fault Refusal) : Prop :=
  ∃ f : Env → M → M, o = run s fun e m => whenAlive m (f e)

/-- `o` is what a command of a group answers in `s`. -/
def RowGroup.Answers : RowGroup → State → Host.Outcome State Fault Refusal → Prop
  | .machine, s, o => OnMachine s o
  | .registers, s, o => (∃ f, o = runSettings s f) ∨ OnMachine s o
  | .settings, s, o => ∃ f, o = runCfg s f ∧ (s.m.alive = false → f s.fuse s.cfg s.m = (s.cfg, s.m))
  | .tap, s, o => ∃ f, o = runCfg s f
  | .always, s, o => ∃ f, o = runAlways s f

theorem onMachine_none (s : State) : OnMachine s (run s fun _ m => m) :=
  ⟨fun _ m => m, congrArg (run s) (by funext e m; simp [whenAlive])⟩

theorem onMachine_run (s : State) (f : Env → M → M) : OnMachine s (run s fun e m => whenAlive m (f e)) := ⟨f, rfl⟩
theorem onMachine_act (s : State) (f : Env → M → M) : OnMachine s (act s f) := ⟨fun e m => fin e (f e m), rfl⟩
theorem onMachine_onLink (s : State) (l : Lnk) (f : Env → M → LinkSt → M) : OnMachine s (onLink s l f) := onMachine_act ..
theorem onMachine_snoopTimer (s : State) (p : HPort) (tag : Tag) (f : Snp → Bool) : OnMachine s (snoopTimer s p tag f) :=
  onMachine_act ..
theorem onMachine_plainRequest (s : State) (h : ReqHdr) (op : Op) : OnMachine s (plainRequest s h op) := onMachine_act ..
theorem onMachine_writeRequest (s : State) (h : ReqHdr) (op : Op) (n : Nat) (mask : Mask) (data : Data) :
    OnMachine s (writeRequest s h op n mask data) := onMachine_act ..
theorem onMachine_ctlRx (s : State) (n : Nat) (f : Env → M → M) : OnMachine s (ctlRx s n f) := onMachine_act ..
theorem onMachine_cklRx (s : State) (k n : Nat) (f : Env → M → M) : OnMachine s (cklRx s k n f) := onMachine_act ..
theorem onMachine_ackRx (s : State) (tag : Tag) (op n : Nat) (f : Env → M → MirOut → M) : OnMachine s (ackRx s tag op n f) :=
  onMachine_cklRx ..
theorem onMachine_mirLostRx (tag : Tag) (line : Line) (s : State) : OnMachine s (execMirLostRx tag line s) := by
  unfold execMirLostRx
  split
  · exact onMachine_cklRx ..
  · exact onMachine_ackRx ..

theorem answers_runSettings (s : State) (f : Env → M → M) : RowGroup.registers.Answers s (runSettings s f) := .inl ⟨f, rfl⟩
theorem answers_accessRow (s : State) (a : Acc) (addr : Word) (w : Bool) (v : Word) :
    RowGroup.registers.Answers s (accessRow s a addr w v) := answers_runSettings ..
theorem answers_writeRow (s : State) (a : Acc) (addr v : Word) : RowGroup.registers.Answers s (writeRow s a addr v) :=
  answers_runSettings ..
theorem answers_ctrRow (s : State) (a : Acc) (c : CtrId) (part : Nat) (w : Bool) (v : Word) :
    RowGroup.registers.Answers s (ctrRow s a c part w v) := by
  unfold ctrRow
  split
  · exact answers_runSettings ..
  · exact .inr (onMachine_none s)
/-- A command of one window makes its access where the address lies in the window, and does nothing elsewhere. -/
theorem answers_bitAliasWrite (a : Acc) (addr v : Word) (s : State) : RowGroup.registers.Answers s (execBitAliasWrite a addr v s) := by
  unfold execBitAliasWrite
  split
  · exact answers_runSettings ..
  · exact .inr (onMachine_none s)
theorem answers_mirrorWindowRead (a : Acc) (addr : Word) (s : State) :
    RowGroup.registers.Answers s (execMirrorWindowRead a addr s) := by
  unfold execMirrorWindowRead
  split
  · exact answers_runSettings ..
  · exact .inr (onMachine_none s)
theorem answers_ringWindowAccess (a : Acc) (addr : Word) (w : Bool) (v : Word) (s : State) :
    RowGroup.registers.Answers s (execRingWindowAccess a addr w v s) := by
  unfold execRingWindowAccess
  split
  · exact answers_runSettings ..
  · exact .inr (onMachine_none s)

theorem answers_ifAlive (s : State) (f : Fuses → Cfg → M → Cfg × M) :
    RowGroup.settings.Answers s (runCfg s fun fuse cfg m => if !m.alive then (cfg, m) else f fuse cfg m) :=
  ⟨_, rfl, fun h => by simp [h]⟩
theorem answers_inkSetting (s : State) (d : Desc) (op : Nat) (bad : Cfg → Nat → Bool) (old : Cfg → Nat) (put : Cfg → Nat → Cfg) :
    RowGroup.settings.Answers s (inkSetting s d op bad old put) := answers_ifAlive s _
theorem answers_warmReset (s : State) : RowGroup.settings.Answers s (execWarmReset s) :=
  ⟨_, rfl, fun h => by simp [h]⟩
theorem answers_warmResponseWait (s : State) : RowGroup.settings.Answers s (execWarmResponseWait s) := by
  refine ⟨_, rfl, fun h => ?_⟩
  dsimp only
  split
  · rfl
  · simp [h]
theorem answers_warmDrainEnd (s : State) : RowGroup.settings.Answers s (execWarmDrainEnd s) := by
  refine ⟨_, rfl, fun h => ?_⟩
  dsimp only
  split
  · rfl
  · simp [h]

theorem answers_boundaryHold (s : State) (ir : BitVec 8) : RowGroup.tap.Answers s (boundaryHold s ir) := ⟨_, rfl⟩
theorem run_eq_runCfg (s : State) (f : Env → M → M) : run s f = runCfg s fun fuse cfg m => (cfg, f ⟨fuse, cfg⟩ m) := rfl
theorem answers_jtagRegAccess (dr : BitVec 66) (s : State) : RowGroup.tap.Answers s (execJtagRegAccess dr s) := by
  unfold execJtagRegAccess
  split
  · exact ⟨_, run_eq_runCfg ..⟩
  · exact ⟨_, rfl⟩

theorem answers_always (s : State) (f : Fuses → Cfg → M → Cfg × M) : RowGroup.always.Answers s (runAlways s f) := ⟨f, rfl⟩

/-- Which function runs each command. -/
theorem exec_group (c : Instr) (s : State) : (rowGroup c).Answers s (exec c s) := by
  cases c <;> rw [exec]
  case coldReset | coldRstNRise | testEnChange | vddAonLoss => exact answers_always s _
  case tapReset => exact ⟨_, run_eq_runCfg ..⟩
  case jtagExtest | jtagHighz | jtagClamp => exact answers_boundaryHold ..
  case jtagRegAccess => exact answers_jtagRegAccess ..
  case ratWrite | patrolCfg | sampleCfg | logPolicy | appCfg | epochBoundary => exact answers_ifAlive s _
  case inkGrant | inkFloor => exact answers_inkSetting ..
  case warmReset => exact answers_warmReset s
  case warmResponseWait => exact answers_warmResponseWait s
  case warmDrainEnd => exact answers_warmDrainEnd s
  case pmcLoRead | pmcHiRead | pmcLoWrite => exact answers_ctrRow ..
  case bitAliasWrite => exact answers_bitAliasWrite ..
  case mirrorWindowRead => exact answers_mirrorWindowRead ..
  case ringWindowAccess => exact answers_ringWindowAccess ..
  case cfgRd | cfgWr | smbusRegRead | smbusRegWrite => exact answers_runSettings s _
  case jpcCtlRestart | jpcCtlHalt | linkCfgThresholdWrite | linkCfgHoldDownWrite | regWrite => exact answers_writeRow ..
  case quoRead | quoWrite | quoBreak | mbxDoorbell | prfSnapStart | rcRegisterRead | errAlertRead | selectorData0Read | selectorWrite
    | imposeResultRead | histShiftWrite | dacTimingWrite | appPolicyWrite | memportEquivWrite =>
    exact answers_accessRow ..
  case jpcWdogWrite | mirrorCapture | islandStop | islandWake | xtalLost | accessAbandon | prfWalkDone | perfCfg | perfSnap
    | perfUserGrant | smbusLastStatus | smbusTimeout | quoinHoldLimit | refreshDue | mr4Poll | dqsTracking | frisketArm | pinmarkSet
    | pinmarkClear | pairStatus | mirrorPolicy | inkSample | inkSensorFault | planMissing | ceilBucketRefill | ceilUnmet
    | thermalSample | throttleStep | thermalTrip | islandPolicyCheck | inkReport | inkPlanQuery | planEpoch | proofStatus | proofAbort
    | logRead | logClear | infoGet | colophonGet | fwVersion | modeQuery | ratRead | appReset | drainStatus | linkStatus | agentMap
    | fwStage | fwCommitTrial | fwVerifyDone | fwCommitFinal =>
    exact onMachine_run s _
  case rdShared | rdOwn | rdOnce | rdNt | rsvLd | evictClean | flushLine | invalLine | barrierC => exact onMachine_plainRequest ..
  case wrLine | evictDirty | wrPart | wrNt | cndSt | atom => exact onMachine_writeRequest ..
  case nakResendTimer | ackTimerExpiry | replayNoProgress | noFlitTimeout | crcWindow | lossOfSignal | groupAlignmentLost
    | laneLockTimeout | retrainAttemptTimeout | retrainCountReset | downToDetect | partnerDetected | trainEqDone | trainEqTimeout
    | alignDone | alignTimeout | initTimeout =>
    exact onMachine_onLink ..
  case snoopTimeout | bcastSnoopTimeout | evpWaitTimeout => exact onMachine_snoopTimer ..
  case pairHelloRx | shedDoneRx | pairCommitRx | releaseHalfRx | releaseAckRx => exact onMachine_ctlRx ..
  case mirWriteRx | mirReleaseRx | mirFetchRx => exact onMachine_cklRx ..
  case mirAckRx | mirNakRx | mirDataRx => exact onMachine_ackRx ..
  case mirLostRx => exact onMachine_mirLostRx ..
  all_goals exact onMachine_act s _

end Sys2Proof.Machine
end

section
/-!
O1 to O4, from the groups: what a step runs, which commands complete, which a held device takes, and what a command leaves as it was.
-/

namespace Sys2Proof.Machine

open Sys2Proof

/-! ### The functions that run commands -/

theorem run_sampled {s : State} (h : s.m.pins.testSampled = true) (f : Env → M → M) : run s f = .refused .manufacturingTest := by
  simp [run, h]
theorem runCfg_sampled {s : State} (h : s.m.pins.testSampled = true) (f : Fuses → Cfg → M → Cfg × M) :
    runCfg s f = .refused .manufacturingTest := by
  simp [runCfg, h]
theorem runCfg_normal {s : State} (h : s.m.pins.testSampled = false) (f : Fuses → Cfg → M → Cfg × M) :
    runCfg s f = .next { s with cfg := (f s.fuse s.cfg s.m).1, m := (f s.fuse s.cfg s.m).2 } := by
  simp [runCfg, h]
theorem run_normal {s : State} (h : s.m.pins.testSampled = false) (f : Env → M → M) : run s f = .next (s.withM (f s.env s.m)) := by
  simp [run, h, State.withM, State.env]
theorem runSettings_held {s : State} (h : s.m.pins.testSampled = false) (ha : s.m.alive = false) (f : Env → M → M) :
    runSettings s f = .next s := by
  simp [runSettings, runCfg_normal h, ha]

/-- `runCfg` changes neither the queue nor the fuses. -/
theorem runCfg_frame {s t : State} {f : Fuses → Cfg → M → Cfg × M} (h : runCfg s f = .next t) :
    t.pending = s.pending ∧ t.fuse = s.fuse := by
  cases ht : s.m.pins.testSampled
  case false =>
    rw [runCfg_normal ht] at h
    cases h
    exact ⟨rfl, rfl⟩
  case true =>
    rw [runCfg_sampled ht] at h
    cases h

/-! ### What the commands of a group do -/

namespace RowGroup.Answers

variable {g : RowGroup} {s t : State} {o : Host.Outcome State Fault Refusal}

/-- Every group but the last one runs its commands by `runCfg`. -/
theorem runs (h : g.Answers s o) (hg : g ≠ .always) : ∃ f, o = runCfg s f := by
  cases g
  case machine => obtain ⟨f, rfl⟩ := h; exact ⟨_, run_eq_runCfg ..⟩
  case registers =>
    rcases h with ⟨f, rfl⟩ | ⟨f, rfl⟩
    · exact ⟨_, rfl⟩
    · exact ⟨_, run_eq_runCfg ..⟩
  case settings => obtain ⟨f, rfl, -⟩ := h; exact ⟨f, rfl⟩
  case tap => exact h
  case always => exact absurd rfl hg

theorem completes (h : g.Answers s o) (ht : s.m.pins.testSampled = false) : ∃ t, o = .next t := by
  by_cases hg : g = .always
  case pos => subst hg; obtain ⟨f, rfl⟩ := h; exact ⟨_, rfl⟩
  case neg => obtain ⟨f, rfl⟩ := h.runs hg; exact ⟨_, runCfg_normal ht f⟩

theorem refused (h : g.Answers s o) (hg : g ≠ .always) (ht : s.m.pins.testSampled = true) :
    o = .refused .manufacturingTest := by
  obtain ⟨f, rfl⟩ := h.runs hg
  exact runCfg_sampled ht f

theorem held (h : g.Answers s o) (hg : g ≠ .always) (hg' : g ≠ .tap) (ht : s.m.pins.testSampled = false)
    (ha : s.m.alive = false) : o = .next s := by
  have machine (o) (h : OnMachine s o) : o = .next s := by
    obtain ⟨f, rfl⟩ := h
    simp [run_normal ht, whenAlive, ha, State.withM]
  cases g
  case machine => exact machine o h
  case registers =>
    rcases h with ⟨f, rfl⟩ | h
    · exact runSettings_held ht ha f
    · exact machine o h
  case settings => obtain ⟨f, rfl, hf⟩ := h; rw [runCfg_normal ht, hf ha]
  case tap => exact absurd rfl hg'
  case always => exact absurd rfl hg

theorem frame (h : g.Answers s (.next t)) : t.pending = s.pending ∧ t.fuse = s.fuse := by
  by_cases hg : g = .always
  case pos =>
    subst hg
    obtain ⟨f, hf⟩ := h
    cases hf
    exact ⟨rfl, rfl⟩
  case neg =>
    obtain ⟨f, hf⟩ := h.runs hg
    exact runCfg_frame hf.symm

theorem settings_kept (h : RowGroup.machine.Answers s (.next t)) : t.cfg = s.cfg := by
  obtain ⟨f, hf⟩ := h
  cases ht : s.m.pins.testSampled
  case false =>
    rw [run_normal ht] at hf
    cases hf
    rfl
  case true =>
    rw [run_sampled ht] at hf
    cases hf

end RowGroup.Answers

theorem exec_tapReset_cfg {s t : State} (h : exec .tapReset s = .next t) : t.cfg = s.cfg := by
  change execTapReset s = _ at h
  unfold execTapReset at h
  cases ht : s.m.pins.testSampled
  case false => rw [run_normal ht] at h; cases h; rfl
  case true => rw [run_sampled ht] at h; cases h

/-! ### A step on an empty queue -/

theorem step_idle {s : State} (h : s.pending = []) : step s = idle s := by
  simp [step, h]

@[simp] theorem elapse_now (e : Env) (m : M) (n : Nat) : (elapse e m n).now = m.now + n := by
  obtain ⟨c, g, f, d, h⟩ := elapse_shape e m n
  rw [h]
@[simp] theorem elapse_port (e : Env) (m : M) (n : Nat) (p : HPort) : (elapse e m n).port p = m.port p := by
  obtain ⟨c, g, f, d, h⟩ := elapse_shape e m n
  rw [h]
  rfl

/-- Whether something is still to be served can be read off the state before the tick. -/
theorem idle_live {s : State} (hl : Live s) : idle s = .next (s.applied
    (if (s.m.port .hpa).cfgReady.isEmpty && (s.m.port .hpb).cfgReady.isEmpty then elapse s.env s.m 1
      else fin s.env (serveReady s.env (elapse s.env s.m 1)))) := by
  unfold idle
  rw [runSettings_live hl]
  simp [hl.2]
theorem noneReady_iff {s : State} : NoneReady s ↔ ((s.m.port .hpa).cfgReady.isEmpty && (s.m.port .hpb).cfgReady.isEmpty) = true := by
  simp [NoneReady]

theorem idle_held {s : State} (h : ¬ Live s) : idle s = .next s := by
  cases ht : s.m.pins.testSampled
  case false =>
    have ha : s.m.alive = false := by
      by_contra hne
      exact h ⟨by simpa using hne, ht⟩
    simp [idle, ht, runSettings_held ht ha]
  case true => simp [idle, ht]

/-! ### The statements -/

/-- Settles O2: outside manufacturing test every group completes, and in it only the last one does. -/
theorem onlyTestModeStops : Obligations.OnlyTestModeStops := by
  intro c s
  refine ⟨(exec_group c s).completes, fun ht => ?_⟩
  have hrefused : rowGroup c ≠ .always → exec c s = .refused .manufacturingTest := fun hg => (exec_group c s).refused hg ht
  cases c
  case coldReset | coldRstNRise | testEnChange | vddAonLoss => exact ⟨_, rfl⟩
  all_goals exact hrefused nofun

/-- Settles O3: only the groups of the TAP and of the resets act on a device that is held. -/
theorem heldInReset : Obligations.HeldInReset := by
  intro c s ha ht
  have hheld : rowGroup c ≠ .always → rowGroup c ≠ .tap → exec c s = .next s := fun hg hg' => (exec_group c s).held hg hg' ht ha
  cases c
  case coldReset | coldRstNRise | testEnChange | vddAonLoss | tapReset | jtagExtest | jtagHighz | jtagClamp | jtagRegAccess =>
    trivial
  all_goals exact hheld nofun nofun

/-- Settles O4: the frame of every group, and for the group that writes the machine alone the settings too. -/
theorem fusesAndSettingsKept : Obligations.FusesAndSettingsKept := by
  intro c s t h
  have hans := exec_group c s
  rw [h] at hans
  obtain ⟨hqueue, hfuse⟩ := hans.frame
  refine ⟨hqueue, hfuse, ?_⟩
  have hkept : rowGroup c = .machine → t.cfg = s.cfg := fun hg => by
    rw [hg] at hans
    exact hans.settings_kept
  cases c
  case ratWrite | inkGrant | inkFloor | patrolCfg | sampleCfg | logPolicy | appCfg | epochBoundary => trivial
  case coldReset | warmReset | warmResponseWait | warmDrainEnd | jtagExtest | jtagHighz | jtagClamp => trivial
  case cfgRd | cfgWr | smbusRegRead | smbusRegWrite | jtagRegAccess => trivial
  case quoRead | quoWrite | quoBreak | mbxDoorbell | jpcCtlRestart | jpcCtlHalt | prfSnapStart => trivial
  case pmcLoRead | pmcHiRead | pmcLoWrite | rcRegisterRead | errAlertRead | selectorData0Read => trivial
  case selectorWrite | imposeResultRead | histShiftWrite | linkCfgThresholdWrite => trivial
  case linkCfgHoldDownWrite | dacTimingWrite | appPolicyWrite | memportEquivWrite => trivial
  case bitAliasWrite | mirrorWindowRead | ringWindowAccess | regWrite => trivial
  case coldRstNRise | testEnChange | vddAonLoss => cases h; rfl
  case tapReset => exact exec_tapReset_cfg h
  all_goals exact hkept rfl

/-- Settles O1: the ports are as they were when the tick has passed, so what is still to be served can be read off the state before. -/
theorem stepRunsFront : Obligations.StepRunsFront := by
  refine ⟨fun s c rest h => ?front, fun s h hl hn => ?none, fun s h hl hn => ?some, fun s h hl => ?held⟩
  case front => simp [step, h]
  case none => exact ⟨by rw [step_idle h, idle_live hl, if_pos (noneReady_iff.mp hn)], elapse_now ..⟩
  case some => rw [step_idle h, idle_live hl, if_neg (mt noneReady_iff.mpr hn)]
  case held => rw [step_idle h, idle_held hl]

end Sys2Proof.Machine
end

section
/-!
O5 and O6. The settings are legal at reset, and every step keeps them so: a setting is written by a command that has checked its
arguments, by a register whose fields take no value outside their bounds, by the epoch boundary, or by a reset.
-/

namespace Sys2Proof.Machine

open Sys2Proof

/-! ### Reset -/

theorem ratEntry_nil (n : Nat) : ratEntry [] n = RatEntry.empty := rfl

theorem Cfg.legal_reset (v : Variant) : (Cfg.reset v).Legal := by
  have hempty : ∀ n < 64, (ratEntry (Cfg.reset v).rat n).valid → (ratEntry (Cfg.reset v).rat n).legal := by
    intro n _ h
    rw [show (Cfg.reset v).rat = [] from rfl, ratEntry_nil] at h
    exact absurd h (by decide)
  refine ⟨rfl, hempty, ?_⟩
  cases v <;> decide

/-- Settles O5. -/
theorem resetLegal : Obligations.ResetLegal :=
  ⟨Cfg.legal_reset, Cfg.legal_reset _, rfl, rfl⟩

/-! ### Settings written by way of registers (R229, R230, R665, R869) -/

theorem fld_lt (x : Word) (lo n : Nat) : fld x lo n < 2 ^ n := Nat.mod_lt _ (by positivity)

/-- The low field of GLB_APP_POLICY keeps its value where the new one is reserved. -/
theorem fld_keepFld_low (old v : Word) (h : fld old 0 2 ≠ 3) : fld (keepFld old v 0 2 (· ≠ 3)) 0 2 ≠ 3 := by
  unfold keepFld
  split
  case isTrue hv => simpa using hv
  case isFalse hv =>
    simp only [fld, setFld, BitVec.toNat_ofNat] at *
    omega
/-- So does the second field, and the low one is as it was in the word that is written. -/
theorem fld_keepFld_high (old v : Word) (h : fld old 2 2 ≠ 3) : fld (keepFld old v 2 2 (· ≠ 3)) 2 2 ≠ 3
    ∧ fld (keepFld old v 2 2 (· ≠ 3)) 0 2 = fld v 0 2 := by
  unfold keepFld
  split
  case isTrue hv => exact ⟨by simpa using hv, rfl⟩
  case isFalse hv =>
    simp only [fld, setFld, BitVec.toNat_ofNat] at *
    omega

theorem extract_ne_three_iff (x : Word) (lo : Nat) (h : lo = 0 ∨ lo = 2) : (x.setWidth 6).extractLsb' lo 2 ≠ 3 ↔ fld x lo 2 ≠ 3 := by
  rw [ne_eq, ne_eq, ← BitVec.toNat_inj]
  rcases h with rfl | rfl <;>
    simp only [fld, BitVec.extractLsb'_toNat, BitVec.toNat_setWidth, Nat.shiftRight_eq_div_pow, BitVec.ofNat_eq_ofNat, BitVec.toNat_ofNat] <;> omega

theorem extract_setWidth_policy (p : BitVec 6) : (p.setWidth 32).setWidth 6 = p := by
  simp

/-- A write of GLB_APP_POLICY leaves no hint policy reserved (R229). -/
theorem policy_register_legal {p : BitVec 6} (h0 : p.extractLsb' 0 2 ≠ 3) (h2 : p.extractLsb' 2 2 ≠ 3) (v : Word) :
    let new := keepFld (p.setWidth 32) (keepFld (p.setWidth 32) v 0 2 (· ≠ 3)) 2 2 (· ≠ 3)
    (new.setWidth 6).extractLsb' 0 2 ≠ 3 ∧ (new.setWidth 6).extractLsb' 2 2 ≠ 3 := by
  rw [← extract_setWidth_policy p, extract_ne_three_iff _ _ (.inl rfl)] at h0
  rw [← extract_setWidth_policy p, extract_ne_three_iff _ _ (.inr rfl)] at h2
  obtain ⟨hhigh, hlow⟩ := fld_keepFld_high (p.setWidth 32) (keepFld (p.setWidth 32) v 0 2 (· ≠ 3)) h2
  refine ⟨?_, (extract_ne_three_iff _ _ (.inr rfl)).mpr hhigh⟩
  rw [extract_ne_three_iff _ _ (.inl rfl), hlow]
  exact fld_keepFld_low _ _ h0

theorem applySetting_legal {c : Cfg} (h : c.Legal) (f : Fuses) (x : Nat × Word) : (applySetting f c x).Legal := by
  obtain ⟨hwf, hrat, hfloor, hgrant, hnext, hnext', hp0, hp2, ⟨hlo, hhi⟩, hmask, ⟨hs, hs'⟩, hrest⟩ := h
  unfold applySetting
  split
  case isTrue =>
    split
    case isTrue => exact ⟨hwf, hrat, hfloor, hgrant, hnext, hnext', hp0, hp2, ⟨hlo, hhi⟩, hmask, ⟨hs, hs'⟩, hrest⟩
    case isFalse =>
      obtain ⟨hq0, hq2⟩ := policy_register_legal hp0 hp2 x.2
      exact ⟨hwf, hrat, hfloor, hgrant, hnext, hnext', hq0, hq2, ⟨hlo, hhi⟩, hmask, ⟨hs, hs'⟩, hrest⟩
  case isFalse =>
    split
    case isTrue =>
      refine ⟨hwf, hrat, hfloor, hgrant, hnext, hnext', hp0, hp2, ?_, ?_, ⟨hs, hs'⟩, hrest⟩
      · dsimp only
        split
        case isTrue hv => simp only [BitVec.le_def, BitVec.ofNat_eq_ofNat, BitVec.toNat_ofNat]; omega
        case isFalse => exact ⟨hlo, hhi⟩
      · dsimp only
        split
        case isTrue => exact hmask
        case isFalse hv =>
          have := fld_lt x.2 5 2
          rw [ne_eq, ← BitVec.toNat_inj]
          simp only [BitVec.ofNat_eq_ofNat, BitVec.toNat_ofNat]
          omega
    case isFalse =>
      split
      case isTrue =>
        refine ⟨hwf, hrat, hfloor, hgrant, hnext, hnext', hp0, hp2, ⟨hlo, hhi⟩, hmask, ?_, hrest⟩
        dsimp only
        split
        case isTrue hv => simp only [BitVec.le_def, BitVec.ofNat_eq_ofNat, BitVec.toNat_ofNat]; omega
        case isFalse => exact ⟨hs, hs'⟩
      case isFalse => exact ⟨hwf, hrat, hfloor, hgrant, hnext, hnext', hp0, hp2, ⟨hlo, hhi⟩, hmask, ⟨hs, hs'⟩, hrest⟩

theorem applySettings_legal {c : Cfg} (h : c.Legal) (f : Fuses) (xs : List (Nat × Word)) : (xs.foldl (applySetting f) c).Legal := by
  induction xs generalizing c with
  | nil => exact h
  | cons x xs ih => exact ih (applySetting_legal h f x)

theorem runSettings_legal {s t : State} (hc : s.cfg.Legal) {f : Env → M → M} (h : runSettings s f = .next t) : t.cfg.Legal := by
  unfold runSettings runCfg at h
  split at h
  case isTrue => cases h
  case isFalse =>
    cases h
    dsimp only
    split
    · exact hc
    · exact applySettings_legal hc ..

/-! ### Settings written by their commands -/

/-- A command that is served and not refused had no illegal argument. -/
theorem badArg_of_refusal_isNone {m : M} {d : Desc} {c : Cmd} {p : Bool} (h : (refusal m d c p).isNone = true) : c.badArg = false := by
  cases hb : c.badArg
  case false => rfl
  case true =>
    unfold refusal at h
    simp only [hb, Bool.true_or, if_true] at h
    split at h
    · cases h
    · split at h <;> cases h

theorem Cfg.Legal.rat_put {c : Cfg} (h : c.Legal) {x : RatEntry} (hx : x.legal = true) (n : Nat) (k : Word) :
    { c with rat := Tab.put (fun _ => RatEntry.empty) c.rat n x, ratWrites := k }.Legal := by
  obtain ⟨hwf, hrat, hrest⟩ := h
  refine ⟨Tab.wf_put hwf, fun k hk hv => ?_, hrest⟩
  unfold ratEntry at hrat hv ⊢
  rw [Tab.get_put] at hv ⊢
  split
  case isTrue => exact hx
  case isFalse hne => rw [if_neg hne] at hv; exact hrat k hk hv

theorem Cfg.Legal.grantNext_set {c : Cfg} (h : c.Legal) {v : Nat} (hv : v ≤ 190000) (hf : c.floorNext.toNat ≤ v) :
    { c with grantNext := BitVec.ofNat 18 v }.Legal := by
  obtain ⟨hwf, hrat, hfloor, hgrant, hnext, hnext', hrest⟩ := h
  refine ⟨hwf, hrat, hfloor, hgrant, ?_, ?_, hrest⟩ <;> simp only [BitVec.le_def, BitVec.ofNat_eq_ofNat, BitVec.toNat_ofNat] <;> omega

theorem Cfg.Legal.floorNext_set {c : Cfg} (h : c.Legal) {v : Nat} (hv : v ≤ 190000) (hg : v ≤ c.grantNext.toNat) :
    { c with floorNext := BitVec.ofNat 18 v }.Legal := by
  obtain ⟨hwf, hrat, hfloor, hgrant, hnext, hnext', hrest⟩ := h
  refine ⟨hwf, hrat, hfloor, hgrant, ?_, hnext', hrest⟩
  simp only [BitVec.le_def, BitVec.toNat_ofNat]
  omega

theorem Cfg.Legal.patrol_set {c : Cfg} (h : c.Legal) {n t : Nat} (hn : 60 ≤ n) (hn' : n ≤ 10080) (ht : t ≠ 0) (ht' : t < 4)
    (b : Bool) : { c with patrolMinutes := BitVec.ofNat 32 n, patrolTargets := BitVec.ofNat 2 t, patrolDiag := b }.Legal := by
  obtain ⟨hwf, hrat, hfloor, hgrant, hnext, hnext', hp0, hp2, hexp, hmask, hshift, -, -⟩ := h
  refine ⟨hwf, hrat, hfloor, hgrant, hnext, hnext', hp0, hp2, hexp, hmask, hshift, ?_, ?_⟩
  · simp only [BitVec.le_def, BitVec.ofNat_eq_ofNat, BitVec.toNat_ofNat]; omega
  · rw [ne_eq, ← BitVec.toNat_inj]; simp only [BitVec.ofNat_eq_ofNat, BitVec.toNat_ofNat]; omega

theorem Cfg.Legal.sample_set {c : Cfg} (h : c.Legal) {n t : Nat} (hn : 4 ≤ n) (hn' : n ≤ 20) (ht : t ≠ 0) (ht' : t < 4) (b : Bool) :
    { c with smpExp := BitVec.ofNat 5 n, smpMask := BitVec.ofNat 2 t, smpDither := b }.Legal := by
  obtain ⟨hwf, hrat, hfloor, hgrant, hnext, hnext', hp0, hp2, -, -, hrest⟩ := h
  refine ⟨hwf, hrat, hfloor, hgrant, hnext, hnext', hp0, hp2, ?_, ?_, hrest⟩
  · simp only [BitVec.le_def, BitVec.ofNat_eq_ofNat, BitVec.toNat_ofNat]; omega
  · rw [ne_eq, ← BitVec.toNat_inj]; simp only [BitVec.ofNat_eq_ofNat, BitVec.toNat_ofNat]; omega

/-- What APP_CFG makes of one port's fields (R229). -/
def appCfgPort (x : BitVec 6) (p policy hints : Nat) : BitVec 6 :=
  let x := (x &&& ~~~((3 : BitVec 6) <<< (2 * p))) ||| (BitVec.ofNat 6 policy <<< (2 * p))
  (x &&& ~~~((1 : BitVec 6) <<< (4 + p))) ||| (BitVec.ofNat 6 hints <<< (4 + p))
theorem appCfg_eq (old : BitVec 6) (ports policy hints : Nat) : appCfg old ports policy hints =
    [0, 1].foldl (fun x p => if ports / 2 ^ p % 2 = 0 then x else appCfgPort x p policy hints) old := rfl

theorem appCfgPort_legal {x : BitVec 6} (h0 : x.extractLsb' 0 2 ≠ 3) (h2 : x.extractLsb' 2 2 ≠ 3) {policy hints : Nat}
    (hp : policy < 3) (hh : hints < 2) {p : Nat} (h : p = 0 ∨ p = 1) :
    (appCfgPort x p policy hints).extractLsb' 0 2 ≠ 3 ∧ (appCfgPort x p policy hints).extractLsb' 2 2 ≠ 3 := by
  have every : ∀ (x : BitVec 6) (p : Fin 2) (policy : Fin 3) (hints : Fin 2), x.extractLsb' 0 2 ≠ 3 → x.extractLsb' 2 2 ≠ 3 →
      (appCfgPort x p policy hints).extractLsb' 0 2 ≠ 3 ∧ (appCfgPort x p policy hints).extractLsb' 2 2 ≠ 3 := by decide +kernel
  exact every x ⟨p, by omega⟩ ⟨policy, hp⟩ ⟨hints, hh⟩ h0 h2

theorem appCfg_legal {x : BitVec 6} (h0 : x.extractLsb' 0 2 ≠ 3) (h2 : x.extractLsb' 2 2 ≠ 3) {policy hints : Nat}
    (hp : policy < 3) (hh : hints < 2) (ports : Nat) :
    (appCfg x ports policy hints).extractLsb' 0 2 ≠ 3 ∧ (appCfg x ports policy hints).extractLsb' 2 2 ≠ 3 := by
  have step : ∀ (x : BitVec 6) (p : Nat), p = 0 ∨ p = 1 → x.extractLsb' 0 2 ≠ 3 → x.extractLsb' 2 2 ≠ 3 →
      (if ports / 2 ^ p % 2 = 0 then x else appCfgPort x p policy hints).extractLsb' 0 2 ≠ 3
        ∧ (if ports / 2 ^ p % 2 = 0 then x else appCfgPort x p policy hints).extractLsb' 2 2 ≠ 3 := by
    intro x p h h0 h2
    split
    · exact ⟨h0, h2⟩
    · exact appCfgPort_legal h0 h2 hp hh h
  rw [appCfg_eq, List.foldl_cons, List.foldl_cons, List.foldl_nil]
  obtain ⟨h0', h2'⟩ := step x 0 (.inl rfl) h0 h2
  exact step _ 1 (.inr rfl) h0' h2'

theorem Cfg.Legal.appPolicy_set {c : Cfg} (h : c.Legal) {p : BitVec 6} (h0 : p.extractLsb' 0 2 ≠ 3) (h2 : p.extractLsb' 2 2 ≠ 3) :
    { c with appPolicy := p }.Legal := by
  obtain ⟨hwf, hrat, hfloor, hgrant, hnext, hnext', -, -, hrest⟩ := h
  exact ⟨hwf, hrat, hfloor, hgrant, hnext, hnext', h0, h2, hrest⟩

theorem Cfg.Legal.boundary {c : Cfg} (h : c.Legal) : { c with grant := c.grantNext, floor := c.floorNext }.Legal := by
  obtain ⟨hwf, hrat, -, -, hnext, hnext', hrest⟩ := h
  exact ⟨hwf, hrat, hnext, hnext', hnext, hnext', hrest⟩

/-! ### Each command that may write settings -/

theorem runCfg_legal {s t : State} {f : Fuses → Cfg → M → Cfg × M} (h : runCfg s f = .next t)
    (hf : (f s.fuse s.cfg s.m).1.Legal) : t.cfg.Legal := by
  unfold runCfg at h
  split at h
  · cases h
  · cases h; exact hf

/-- A command that writes settings where it is served and not refused: what it writes is legal if its arguments have been checked. -/
theorem checkedCfg_legal {m : M} {d : Desc} {c : Cmd} {old new : Cfg} (hold : old.Legal) (hnew : c.badArg = false → new.Legal) :
    (if served m d c && (refusal m d c (privileged m d)).isNone then new else old).Legal := by
  split
  case isTrue h =>
    rw [Bool.and_eq_true] at h
    exact hnew (badArg_of_refusal_isNone h.2)
  case isFalse => exact hold

theorem execRatWrite_legal {s t : State} {d : Desc} (hc : s.cfg.Legal) (h : execRatWrite d s = .next t) : t.cfg.Legal := by
  refine runCfg_legal h ?_
  dsimp only
  split
  · exact hc
  · refine checkedCfg_legal hc fun hbad => ?_
    simp only [Bool.or_eq_false_iff, Bool.not_eq_false'] at hbad
    obtain ⟨⟨-, hx⟩, -⟩ := hbad
    exact hc.rat_put hx ..

theorem inkSetting_legal {s t : State} {d : Desc} {op : Nat} {bad : Cfg → Nat → Bool} {old : Cfg → Nat} {put : Cfg → Nat → Cfg}
    (hc : s.cfg.Legal) (h : inkSetting s d op bad old put = .next t)
    (hput : descArg d 8 4 ≤ 190000 → bad s.cfg (descArg d 8 4) = false → (put s.cfg (descArg d 8 4)).Legal) : t.cfg.Legal := by
  refine runCfg_legal h ?_
  dsimp only
  split
  · exact hc
  · refine checkedCfg_legal hc fun hbad => ?_
    simp only [Bool.or_eq_false_iff, decide_eq_false_iff_not, Nat.not_lt] at hbad
    obtain ⟨⟨hmax, hother⟩, -⟩ := hbad
    exact hput hmax hother
theorem execInkGrant_legal {s t : State} {d : Desc} (hc : s.cfg.Legal) (h : execInkGrant d s = .next t) : t.cfg.Legal := by
  refine inkSetting_legal hc h fun hmax hbad => ?_
  simp only [Bool.or_eq_false_iff, decide_eq_false_iff_not, Nat.not_lt] at hbad
  exact hc.grantNext_set hmax hbad.2
theorem execInkFloor_legal {s t : State} {d : Desc} (hc : s.cfg.Legal) (h : execInkFloor d s = .next t) : t.cfg.Legal := by
  refine inkSetting_legal hc h fun hmax hbad => ?_
  simp only [decide_eq_false_iff_not, Nat.not_lt] at hbad
  exact hc.floorNext_set hmax hbad

theorem execPatrolCfg_legal {s t : State} {d : Desc} (hc : s.cfg.Legal) (h : execPatrolCfg d s = .next t) : t.cfg.Legal := by
  refine runCfg_legal h ?_
  dsimp only
  split
  · exact hc
  · refine checkedCfg_legal hc fun hbad => ?_
    simp only [Bool.or_eq_false_iff, decide_eq_false_iff_not, Nat.not_lt, Nat.not_le, beq_eq_false_iff_ne] at hbad
    obtain ⟨⟨⟨⟨⟨hmin, hmax⟩, hnone⟩, htwo⟩, -⟩, -⟩ := hbad
    exact hc.patrol_set hmin hmax hnone htwo _

theorem execSampleCfg_legal {s t : State} {d : Desc} (hc : s.cfg.Legal) (h : execSampleCfg d s = .next t) : t.cfg.Legal := by
  refine runCfg_legal h ?_
  dsimp only
  split
  · exact hc
  · refine checkedCfg_legal hc fun hbad => ?_
    simp only [Bool.or_eq_false_iff, decide_eq_false_iff_not, Nat.not_lt, Nat.not_le, beq_eq_false_iff_ne] at hbad
    obtain ⟨⟨⟨⟨⟨hmin, hmax⟩, hnone⟩, htwo⟩, -⟩, -⟩ := hbad
    exact hc.sample_set hmin hmax hnone htwo _

theorem execLogPolicy_legal {s t : State} {d : Desc} (hc : s.cfg.Legal) (h : execLogPolicy d s = .next t) : t.cfg.Legal := by
  refine runCfg_legal h ?_
  dsimp only
  split
  · exact hc
  · exact checkedCfg_legal hc fun _ => hc

theorem execAppCfg_legal {s t : State} {d : Desc} (hc : s.cfg.Legal) (h : execAppCfg d s = .next t) : t.cfg.Legal := by
  obtain ⟨-, -, -, -, -, -, hp0, hp2, -⟩ := id hc
  refine runCfg_legal h ?_
  dsimp only
  split
  · exact hc
  · refine checkedCfg_legal hc fun hbad => ?_
    simp only [Bool.or_eq_false_iff, decide_eq_false_iff_not, Nat.not_le] at hbad
    obtain ⟨⟨⟨-, hpolicy⟩, hhints⟩, -⟩ := hbad
    split
    · obtain ⟨h0, h2⟩ := appCfg_legal hp0 hp2 hpolicy hhints (descArg d 8 1)
      exact hc.appPolicy_set h0 h2
    · exact hc

theorem execEpochBoundary_legal {s t : State} {f : EpochFacts} (hc : s.cfg.Legal) (h : execEpochBoundary f s = .next t) :
    t.cfg.Legal := by
  refine runCfg_legal h ?_
  dsimp only
  split
  · exact hc
  · exact hc.boundary

theorem warmCfg_legal (e : Env) : (warmCfg e).Legal := Cfg.legal_reset e.fuse.variant

theorem execWarmReset_legal {s t : State} (hc : s.cfg.Legal) (h : execWarmReset s = .next t) : t.cfg.Legal := by
  refine runCfg_legal h ?_
  dsimp only
  split
  · exact hc
  · split
    · exact warmCfg_legal _
    · exact hc
theorem execWarmResponseWait_legal {s t : State} (hc : s.cfg.Legal) (h : execWarmResponseWait s = .next t) : t.cfg.Legal := by
  refine runCfg_legal h ?_
  dsimp only
  split
  · exact hc
  · split
    · exact hc
    · split
      · exact hc
      · exact warmCfg_legal _
theorem execWarmDrainEnd_legal {s t : State} (hc : s.cfg.Legal) (h : execWarmDrainEnd s = .next t) : t.cfg.Legal := by
  refine runCfg_legal h ?_
  dsimp only
  split
  · exact hc
  · split
    · exact hc
    · exact warmCfg_legal _

theorem execJtagRegAccess_legal {s t : State} {dr : BitVec 66} (hc : s.cfg.Legal) (h : execJtagRegAccess dr s = .next t) :
    t.cfg.Legal := by
  unfold execJtagRegAccess at h
  split at h
  · rw [run_eq_runCfg] at h
    exact runCfg_legal h hc
  · exact runSettings_legal hc h

theorem boundaryHold_legal {s t : State} {ir : BitVec 8} (h : boundaryHold s ir = .next t) : t.cfg.Legal :=
  runCfg_legal h (Cfg.legal_reset _)

theorem registers_legal {s t : State} (hc : s.cfg.Legal) (h : RowGroup.registers.Answers s (.next t)) : t.cfg.Legal := by
  rcases h with ⟨f, hf⟩ | hm
  · exact runSettings_legal hc hf.symm
  · exact RowGroup.Answers.settings_kept hm ▸ hc

/-- The invariant, over every command. -/
theorem exec_legal {c : Instr} {s t : State} (hc : s.cfg.Legal) (h : exec c s = .next t) : t.cfg.Legal := by
  have hans := exec_group c s
  rw [h] at hans
  have hmachine : rowGroup c = .machine → t.cfg.Legal := fun hg => by
    rw [hg] at hans
    exact hans.settings_kept ▸ hc
  have hregisters : rowGroup c = .registers → t.cfg.Legal := fun hg => by
    rw [hg] at hans
    exact registers_legal hc hans
  cases c
  case ratWrite => exact execRatWrite_legal hc h
  case inkGrant => exact execInkGrant_legal hc h
  case inkFloor => exact execInkFloor_legal hc h
  case patrolCfg => exact execPatrolCfg_legal hc h
  case sampleCfg => exact execSampleCfg_legal hc h
  case logPolicy => exact execLogPolicy_legal hc h
  case appCfg => exact execAppCfg_legal hc h
  case epochBoundary => exact execEpochBoundary_legal hc h
  case warmReset => exact execWarmReset_legal hc h
  case warmResponseWait => exact execWarmResponseWait_legal hc h
  case warmDrainEnd => exact execWarmDrainEnd_legal hc h
  case coldReset => cases h; exact Cfg.legal_reset _
  case coldRstNRise | testEnChange | vddAonLoss => cases h; exact hc
  case tapReset => exact exec_tapReset_cfg h ▸ hc
  case jtagExtest | jtagHighz | jtagClamp => exact boundaryHold_legal h
  case jtagRegAccess => exact execJtagRegAccess_legal hc h
  case cfgRd | cfgWr | smbusRegRead | smbusRegWrite | quoRead | quoWrite | quoBreak | mbxDoorbell | jpcCtlRestart | jpcCtlHalt
    | prfSnapStart | pmcLoRead | pmcHiRead | pmcLoWrite | rcRegisterRead | errAlertRead | selectorData0Read | selectorWrite
    | imposeResultRead | histShiftWrite | linkCfgThresholdWrite | linkCfgHoldDownWrite | dacTimingWrite | appPolicyWrite
    | memportEquivWrite | bitAliasWrite | mirrorWindowRead | ringWindowAccess | regWrite =>
    exact hregisters rfl
  all_goals exact hmachine rfl

theorem idle_legal {s t : State} (hc : s.cfg.Legal) (h : idle s = .next t) : t.cfg.Legal := by
  unfold idle at h
  split at h
  · cases h; exact hc
  · exact runSettings_legal hc h

/-- Settles O6: a step is the front command, or an idle tick. -/
theorem stepKeepsLegal : Obligations.StepKeepsLegal := by
  intro s t hc h
  unfold step at h
  split at h
  case h_1 => exact idle_legal hc h
  case h_2 c rest _ => exact exec_legal (s := { s with pending := rest }) hc h

end Sys2Proof.Machine
end

section
/-!
The rows on a running device, in the form in which the statements use them: what the row's function makes of the machine is given as an
equation.
-/

namespace Sys2Proof.Machine

open Sys2Proof

theorem act_next {s : State} (h : Live s) {f : Env → M → M} {m : M} (hf : f s.env s.m = m) : act s f = .next (s.after m) := by
  rw [act_live h, hf]
theorem run_next {s : State} (h : Live s) {f : Env → M → M} {m : M} (hf : f s.env s.m = m) :
    run s (fun e m => whenAlive m (f e)) = .next (s.withM m) := by
  rw [runLive_live h, hf]
theorem onLink_next {s : State} (h : Live s) {l : Lnk} {f : Env → M → LinkSt → M} {m : M} (hf : f s.env s.m (s.m.link l) = m) :
    onLink s l f = .next (s.after m) := act_next h hf

end Sys2Proof.Machine
end

section
/-!
What reporting changes. Logging an entry, posting an event, answering a command and counting touch registers, counters, the errata log
and the rings; nothing else, and of the controller only its rings and the list of the accepted commands.
-/

namespace Sys2Proof.Machine

open Sys2Proof

/-! ### The relation -/

/-- `b` is `a` but for what reports write. -/
def Reported (a b : M) : Prop :=
  b = { a with
    regs := b.regs, ctrs := b.ctrs, free := b.free, err := b.err
    jpc := { a.jpc with
      heads := b.jpc.heads, tails := b.jpc.tails, store := b.jpc.store, evtSeq := b.jpc.evtSeq, evtDrops := b.jpc.evtDrops
      ringDrops := b.jpc.ringDrops, accepted := b.jpc.accepted, dbgWait := b.jpc.dbgWait } }

theorem Reported.refl (a : M) : Reported a a := rfl
theorem Reported.trans {a b c : M} (h : Reported a b) (h' : Reported b c) : Reported a c := by
  unfold Reported at *
  rw [h', h]
theorem Reported.foldl {β : Type} {f : M → β → M} (h : ∀ m x, Reported m (f m x)) (xs : List β) (m : M) :
    Reported m (xs.foldl f m) := by
  induction xs generalizing m with
  | nil => exact .refl m
  | cons x xs ih => exact (h m x).trans (ih (f m x))
theorem Reported.ite {a x y : M} {c : Prop} [Decidable c] (hx : Reported a x) (hy : Reported a y) : Reported a (if c then x else y) := by
  split
  · exact hx
  · exact hy

theorem Reported.now {a b : M} (h : Reported a b) : b.now = a.now := by unfold Reported at h; rw [h]
theorem Reported.mode {a b : M} (h : Reported a b) : b.mode = a.mode := by unfold Reported at h; rw [h]
theorem Reported.twin {a b : M} (h : Reported a b) : b.twin = a.twin := by unfold Reported at h; rw [h]
theorem Reported.fw {a b : M} (h : Reported a b) : b.jpc.fw = a.jpc.fw := by
  unfold Reported at h; rw [h]

/-! ### Registers, counters and rings -/

theorem reported_wr (e : Env) (m : M) (w : Nat) (v : Word) : Reported m (wr e m w v) := rfl
theorem reported_bump (e : Env) (m : M) (w n : Nat) : Reported m (bump e m w n) := rfl
theorem reported_setErr (m : M) (f : ErrSt → ErrSt) : Reported m (m.setErr f) := rfl
theorem reported_free (m : M) (n : Nat) : Reported m { m with free := n } := rfl
theorem reported_setAccepted (m : M) (f : List Accepted → List Accepted) :
    Reported m (m.setJpc fun j => { j with accepted := f j.accepted }) := rfl
theorem reported_setHead (m : M) (r : Nat) (x : BitVec 16) : Reported m (m.setHead r x) := rfl

theorem reported_putRing (m : M) (r k : Nat) (v : Word) : Reported m (m.putRing r k v) := rfl

theorem reported_count (e : Env) (m : M) (i code n : Nat) (a : Option Agent) : Reported m (count e m i code n a) := by
  have h := (count_only e m i code n a).counted
  unfold CountedOnly at h
  rw [h]
  rfl

theorem reported_pushRing (v : Variant) (m : M) (r : Nat) (x : BitVec 512) : Reported m (pushRing v m r x) := by
  unfold pushRing
  split
  · exact .refl m
  · split
    · rfl
    · exact (Reported.foldl (fun m _ => reported_putRing m ..) _ m).trans rfl

theorem reported_postRing (v : Variant) (m : M) (r : Nat) (code tag : BitVec 16) (status source : BitVec 8) (opcode : BitVec 16)
    (ring : BitVec 8) (payload : BitVec 352) : Reported m (postRing v m r code tag status source opcode ring payload) := by
  unfold postRing
  split
  · rfl
  · exact (reported_pushRing ..).trans rfl

theorem reported_postOn (e : Env) (m : M) (r : Nat) (code tag : BitVec 16) (status source : BitVec 8) (opcode : BitVec 16)
    (ring : BitVec 8) (payload : BitVec 352) : Reported m (postOn e m r code tag status source opcode ring payload) := by
  unfold postOn
  exact (Reported.ite (reported_count ..) (.refl m)).trans (reported_postRing ..)

theorem reported_postEvt (e : Env) (m : M) (code : BitVec 16) (source : BitVec 8) (payload : BitVec 352) :
    Reported m (postEvt e m code source payload) := by
  unfold postEvt
  exact (Reported.ite (reported_count ..) (.refl m)).trans (Reported.foldl (fun _ _ => reported_postRing ..) _ _)

theorem reported_pushDbg (v : Variant) (m : M) (x : BitVec 512) : Reported m (pushDbg v m x) := by
  unfold pushDbg
  split
  · rfl
  · exact reported_pushRing ..

/-! ### The errata log -/

theorem reported_takeLog (e : Env) (m : M) : Reported m (takeLog e m) :=
  .ite ((reported_setHead ..).trans (reported_postEvt ..)) (reported_setHead ..)

theorem reported_logAfter (e : Env) (m : M) (x : LogEntry) (i : Word) : Reported m (logAfter e m x i) := by
  unfold logAfter
  refine .ite (.trans ?_ (reported_takeLog ..)) ?_ <;>
    exact .ite ((Reported.ite (reported_wr ..) (.refl m)).trans (.trans (reported_pushRing ..) rfl))
      ((Reported.ite (reported_wr ..) (.refl m)).trans (reported_pushRing ..))

theorem reported_logPut (e : Env) (m : M) (x : LogEntry) : Reported m (logPut e m x) :=
  (reported_setErr ..).trans (reported_logAfter ..)

theorem reported_logRaw (e : Env) (m : M) (code src : Nat) (a0 a1 : Word) (a2 : BitVec 64) : Reported m (logRaw e m code src a0 a1 a2) := by
  unfold logRaw
  refine (reported_bump ..).trans (.ite (reported_setErr ..) ?_)
  exact (Reported.ite (reported_setErr ..) (.refl _)).trans (reported_logPut ..)

theorem reported_degradeLog (e : Env) (m : M) (word : Nat) (x : Option LogEntry) : Reported m (degradeLog e m word x) := by
  unfold degradeLog
  cases x
  case none => exact (reported_setErr ..).trans ((reported_bump ..).trans ((reported_logPut ..).trans (reported_logRaw ..)))
  case some =>
    exact (reported_setErr ..).trans ((reported_setErr ..).trans
      ((reported_bump ..).trans ((reported_logPut ..).trans (reported_logRaw ..))))

theorem reported_log (e : Env) (m : M) (code src : Nat) (a0 a1 : Word) (a2 : BitVec 64) : Reported m (log e m code src a0 a1 a2) := by
  unfold log
  dsimp only
  split
  case isFalse => exact reported_logRaw ..
  case isTrue =>
    have hstruck : Reported m (logRaw e { (logRaw e m code src a0 a1 a2).setErr fun r =>
        { r with frisket := { m.err.frisket with armed := false } } with
        free := (logRaw e m code src a0 a1 a2).free + 1 } 0x0406 31 4 0
          (BitVec.ofNat 64 (if m.err.frisket.matchEn then m.err.frisket.matchAddr.toNat else m.err.next.toNat % 32768 * 4))) :=
      (reported_logRaw ..).trans ((reported_setErr ..).trans ((reported_free ..).trans (reported_logRaw ..)))
    split
    · exact hstruck.trans (reported_logRaw ..)
    · exact hstruck.trans ((reported_setErr ..).trans (reported_degradeLog ..))
    · exact hstruck

/-! ### Commands -/

theorem reported_endAccepted (e : Env) (m : M) (a : Accepted) (status : Nat) (res : BitVec 448) :
    Reported m (endAccepted e m a status res) := by
  have hdropped : Reported m ((count e m 30 3 1 none).setJpc fun j => { j with accepted := j.accepted.filter fun x => x.id != a.id }) :=
    (reported_count ..).trans (reported_setAccepted ..)
  refine hdropped.trans ?_
  unfold endAccepted
  dsimp only
  split
  · exact reported_postOn ..
  · exact reported_pushDbg ..

theorem reported_finishCmd (e : Env) (m : M) (id status : Nat) (res : BitVec 448) : Reported m (finishCmd e m id status res) := by
  unfold finishCmd
  split
  · exact .refl m
  · split
    · exact reported_endAccepted ..
    · exact .refl m

end Sys2Proof.Machine
end

section
/-!
O9. One change of the mode register (R687, R689): the modes that it names change together, and what the change ends is only reported.
-/

namespace Sys2Proof.Machine

open Sys2Proof

theorem reported_endDrains (e : Env) (m : M) (status : Nat) : Reported m (endDrains e m status) :=
  .foldl (fun _ _ => reported_finishCmd ..) _ m

theorem writeModes_twin (e : Env) (m : M) (set clear : BitVec 12) : (writeModes e m set clear).twin = m.twin := by
  unfold writeModes
  dsimp only
  split
  · rfl
  · split <;> split <;> simp [(reported_endDrains ..).twin]

/-- The register takes the modes of `set` and loses those of `clear`; where that changes none, it is not written. -/
theorem writeModes_active (e : Env) (m : M) (set clear : BitVec 12) :
    (writeModes e m set clear).mode.active = m.mode.active ∧ (m.modeActive ||| set) &&& ~~~clear = m.modeActive
      ∨ (writeModes e m set clear).mode.active = ((m.modeActive ||| set) &&& ~~~clear) &&& 0x7FF := by
  unfold writeModes
  dsimp only
  split
  case isTrue h => exact .inl ⟨rfl, (BitVec.xor_eq_zero_iff.mp (beq_iff_eq.mp h)).symm⟩
  case isFalse => right; split <;> split <;> simp [(reported_endDrains ..).mode]

/-- SOLO is bit 11 and no mode of the register. -/
theorem register_bits (n : Fin 11) (b : Bool) :
    (0x7FF : BitVec 12).getLsbD n = true ∧ (if b then (0x800 : BitVec 12) else 0).getLsbD n = false := by
  revert n b
  decide

theorem modeBit_register (m : M) (n : Fin 11) : m.modeBit n = m.mode.active.getLsbD n := by
  obtain ⟨h, h'⟩ := register_bits n m.twin.solo
  simp only [M.modeBit, M.modeActive, BitVec.getLsbD_or, BitVec.getLsbD_and, h, h', Bool.and_true, Bool.or_false]
theorem modeBit_solo (m : M) : m.modeBit 11 = m.twin.solo := by
  cases h : m.twin.solo <;> simp [M.modeBit, M.modeActive, h]

/-- Settles O9: the bits of the register are those of the new mask, whether or not it is written. -/
theorem modeRegisterChange : Obligations.ModeRegisterChange := by
  intro e m set clear n
  have hnew : ((m.modeActive ||| set) &&& ~~~clear).getLsbD n = ((m.modeBit n || set.getLsbD n) && !clear.getLsbD n) := by
    have hn : n.val < 12 := by omega
    simp [M.modeBit, hn]
  refine ⟨?_, by rw [modeBit_solo, writeModes_twin]⟩
  rw [← hnew]
  rcases writeModes_active e m set clear with ⟨hkept, hsame⟩ | hset
  · rw [hsame, modeBit_register, hkept, ← modeBit_register]
    rfl
  · rw [modeBit_register, hset, BitVec.getLsbD_and, (register_bits n true).1, Bool.and_true]

end Sys2Proof.Machine
end

section
/-!
O19. The boot ROM (R587, R592): first what a trial makes of the boot record, then the three ways in which a boot ends.
-/

namespace Sys2Proof.Machine

open Sys2Proof

/-! ### The record of a boot -/

/-- The boot record once the boot has been counted, or the fourth on trial has rolled back. -/
def countedRecord (r : BootRecord) : BootRecord :=
  if !r.trial then r
  else if 3 ≤ r.trialBoots then { r with active := !r.active, trial := false, rolledBack := true, generation := r.generation + 1 }
  else { r with trialBoots := r.trialBoots + 1, generation := r.generation + 1 }
/-- The record once its active slot has been found not valid. -/
def invalidated (r : BootRecord) : BootRecord := { r.setValid r.active false with generation := r.generation + 1 }

theorem countedRecord_of_no_trial {r : BootRecord} (h : r.trial = false) : countedRecord r = r := by simp [countedRecord, h]
theorem countedRecord_of_last {r : BootRecord} (h : r.trial = true) (hb : 3 ≤ r.trialBoots) :
    countedRecord r = { r with active := !r.active, trial := false, rolledBack := true, generation := r.generation + 1 } := by
  simp [countedRecord, h, hb]
theorem countedRecord_of_earlier {r : BootRecord} (h : r.trial = true) (hb : r.trialBoots < 3) :
    countedRecord r = { r with trialBoots := r.trialBoots + 1, generation := r.generation + 1 } := by
  simp [countedRecord, h, Nat.not_le.mpr hb]

theorem invalidated_valid (r : BootRecord) : (invalidated r).valid r.active = false := by
  cases h : r.active <;> simp [invalidated, BootRecord.valid, BootRecord.setValid, h]
theorem invalidated_valid_other (r : BootRecord) : (invalidated r).valid (!r.active) = r.valid (!r.active) := by
  cases h : r.active <;> simp [invalidated, BootRecord.valid, BootRecord.setValid, h]
theorem invalidated_rolledBack (r : BootRecord) : (invalidated r).rolledBack = r.rolledBack := by
  cases h : r.active <;> simp [invalidated, BootRecord.setValid, h]
theorem invalidated_trial (r : BootRecord) : (invalidated r).trial = r.trial := by
  cases h : r.active <;> simp [invalidated, BootRecord.setValid, h]
theorem invalidated_trialBoots (r : BootRecord) : (invalidated r).trialBoots = r.trialBoots := by
  cases h : r.active <;> simp [invalidated, BootRecord.setValid, h]

/-! ### How a boot ends -/

variable (e : Env) (m : M) (b : BootFacts)

/-- The machine once the tables are read and the boot is counted. -/
def bootStart (m : M) (b : BootFacts) : M :=
  let m := m.setJpc fun j => { j with sfdp := b.sfdp.map sfdpTaken }
  if !m.jpc.record.trial then m
  else if 3 ≤ m.jpc.record.trialBoots then writeRecord m fun r => { r with active := !r.active, trial := false, rolledBack := true }
  else writeRecord m fun r => { r with trialBoots := r.trialBoots + 1 }
theorem bootStart_record : (bootStart m b).jpc.record = countedRecord m.jpc.record := by
  by_cases ht : m.jpc.record.trial = true <;> by_cases hb : 3 ≤ m.jpc.record.trialBoots <;>
    simp [bootStart, countedRecord, writeRecord, ht, hb]
theorem bootStart_sfdp : (bootStart m b).jpc.sfdp = b.sfdp.map sfdpTaken := by
  by_cases ht : m.jpc.record.trial = true <;> by_cases hb : 3 ≤ m.jpc.record.trialBoots <;> simp [bootStart, writeRecord, ht, hb]

/-- The machine once the image of the active slot has not verified. -/
def invalidate (e : Env) (m : M) (b : BootFacts) : M :=
  writeRecord (m.setJpc fun j => { j with failCause := slotCause e.fuse b m.jpc.record.active }) fun r =>
    r.setValid m.jpc.record.active false
/-- The rest of a boot from there; `slot` is the active one. -/
def fallBack (e : Env) (m : M) (b : BootFacts) (slot : Bool) : M × Bool :=
  let recover (m : M) : M := m.setJpc fun j => { j with fw := .recovery, session := none, trialRun := false, sigChecked := false }
  if !m.jpc.record.valid !slot then (recover m, false)
  else if slotCause e.fuse b (!slot) == 0 then
    (startImage e (writeRecord m fun r => { r with active := !slot, trial := false }) b !slot, true)
  else (recover (m.setJpc fun j => { j with failCause := slotCause e.fuse b !slot }), false)
/-- A boot goes on with the image of the active slot if it verifies. -/
theorem bootImage_eq : bootImage e m b =
    if slotCause e.fuse b (bootStart m b).jpc.record.active == 0 then
      (startImage e (bootStart m b) b (bootStart m b).jpc.record.active, true)
    else fallBack e (invalidate e (bootStart m b) b) b (bootStart m b).jpc.record.active := rfl

variable {e m b}

/-- Whichever way it ends, falling back keeps the tables and all of the record but the active slot and its trial. -/
theorem fallBack_keeps (slot : Bool) : (fallBack e m b slot).1.jpc.sfdp = m.jpc.sfdp
    ∧ (fallBack e m b slot).1.jpc.record.rolledBack = m.jpc.record.rolledBack
    ∧ (fallBack e m b slot).1.jpc.record.trialBoots = m.jpc.record.trialBoots
    ∧ ∀ x, (fallBack e m b slot).1.jpc.record.valid x = m.jpc.record.valid x := by
  unfold fallBack
  dsimp only
  split
  · exact ⟨rfl, rfl, rfl, fun _ => rfl⟩
  · split <;> exact ⟨rfl, rfl, rfl, fun _ => rfl⟩
theorem fallBack_trial {slot : Bool} (h : m.jpc.record.trial = false) : (fallBack e m b slot).1.jpc.record.trial = false := by
  unfold fallBack
  dsimp only
  split
  · exact h
  · split
    · rfl
    · exact h
theorem fallBack_other {slot : Bool} (hv : m.jpc.record.valid (!slot) = true) (hc : slotCause e.fuse b (!slot) = 0) :
    fallBack e m b slot = (startImage e (writeRecord m fun r => { r with active := !slot, trial := false }) b !slot, true) := by
  unfold fallBack
  rw [if_neg (by simp [hv]), if_pos (by simp [hc])]
theorem fallBack_recovery {slot : Bool} (h : m.jpc.record.valid (!slot) = false ∨ slotCause e.fuse b (!slot) ≠ 0) :
    (fallBack e m b slot).1.jpc.fw = .recovery ∧ (fallBack e m b slot).2 = false := by
  unfold fallBack
  dsimp only
  split
  case isTrue => exact ⟨rfl, rfl⟩
  case isFalse hv =>
    rw [if_neg]
    · exact ⟨rfl, rfl⟩
    · rcases h with h | h
      · simp [h] at hv
      · simpa using h

/-- The record after a boot whose active slot's image starts. -/
theorem bootImage_active (hc : slotCause e.fuse b (countedRecord m.jpc.record).active = 0) :
    (bootImage e m b).1.jpc.fw = .running ∧ (bootImage e m b).1.jpc.slot = (countedRecord m.jpc.record).active
      ∧ (bootImage e m b).1.jpc.trialRun = (countedRecord m.jpc.record).trial
      ∧ (bootImage e m b).1.jpc.record = countedRecord m.jpc.record := by
  rw [← bootStart_record m b] at hc ⊢
  rw [bootImage_eq, if_pos (by simp [hc])]
  exact ⟨rfl, rfl, rfl, rfl⟩
theorem bootImage_inactive (hc : slotCause e.fuse b (countedRecord m.jpc.record).active ≠ 0) :
    bootImage e m b = fallBack e (invalidate e (bootStart m b) b) b (countedRecord m.jpc.record).active := by
  rw [← bootStart_record m b] at hc ⊢
  rw [bootImage_eq, if_neg (by simpa using hc)]
theorem invalidate_record : (invalidate e (bootStart m b) b).jpc.record = invalidated (countedRecord m.jpc.record) := by
  rw [← bootStart_record m b]
  rfl

theorem bootImage_sfdp : (bootImage e m b).1.jpc.sfdp = b.sfdp.map sfdpTaken := by
  rw [← bootStart_sfdp m b, bootImage_eq]
  split
  · rfl
  · exact (fallBack_keeps _).1

/-! ### The statement -/

theorem sfdpTaken_fits (t : SfdpTables) : (sfdpTaken t).fourByte = t.fourByte ∧ (sfdpTaken t).erase = t.erase
    ∧ (t.quad144 = true → (sfdpTaken t).mode = .r144 ∧ (sfdpTaken t).dummy = t.dummy144)
    ∧ (t.quad144 = false → t.quad114 = true → (sfdpTaken t).mode = .r114 ∧ (sfdpTaken t).dummy = t.dummy114)
    ∧ (t.quad144 = false → t.quad114 = false → (sfdpTaken t).mode = .r111 ∧ (sfdpTaken t).dummy = t.dummy111) := by
  cases h4 : t.quad144 <;> cases h1 : t.quad114 <;> simp [sfdpTaken, h4, h1]

/-- A trial, once counted, is over where the boot is its fourth, and no later step of the boot takes that back. -/
theorem bootImage_last_trial (ht : m.jpc.record.trial = true) (hb : 3 ≤ m.jpc.record.trialBoots) :
    (bootImage e m b).1.jpc.record.rolledBack = true ∧ (bootImage e m b).1.jpc.record.trial = false := by
  have hcount := countedRecord_of_last ht hb
  by_cases hc : slotCause e.fuse b (countedRecord m.jpc.record).active = 0
  case pos =>
    obtain ⟨-, -, -, hr⟩ := bootImage_active hc
    rw [hr, hcount]
    exact ⟨rfl, rfl⟩
  case neg =>
    have htrial : (invalidate e (bootStart m b) b).jpc.record.trial = false := by
      rw [invalidate_record, invalidated_trial, hcount]
    obtain ⟨-, hrolled, -, -⟩ := fallBack_keeps (e := e) (b := b) (m := invalidate e (bootStart m b) b) (countedRecord m.jpc.record).active
    rw [bootImage_inactive hc, hrolled, invalidate_record, invalidated_rolledBack, hcount]
    exact ⟨rfl, fallBack_trial htrial⟩

theorem bootImage_trialBoots : (bootImage e m b).1.jpc.record.trialBoots = (countedRecord m.jpc.record).trialBoots := by
  by_cases hc : slotCause e.fuse b (countedRecord m.jpc.record).active = 0
  case pos =>
    obtain ⟨-, -, -, hr⟩ := bootImage_active hc
    rw [hr]
  case neg =>
    obtain ⟨-, -, hboots, -⟩ := fallBack_keeps (e := e) (b := b) (m := invalidate e (bootStart m b) b) (countedRecord m.jpc.record).active
    rw [bootImage_inactive hc, hboots, invalidate_record, invalidated_trialBoots]

/-- Settles O19: the counted record names the slot that is tried first. -/
theorem bootRomChoosesImage : Obligations.BootRomChoosesImage := by
  intro e m b cause r hcause hr
  have hslot : ∀ x, slotCause e.fuse b x = cause x := by
    intro x
    rw [hcause]
    cases h : b.sfdp <;> simp [slotCause, h]
  subst hr
  refine ⟨fun t ht => ⟨sfdpTaken t, by rw [bootImage_sfdp, ht]; rfl, sfdpTaken_fits t⟩, ?last, ?earlier, ?started, ?fell⟩
  case last =>
    intro ht hb
    obtain ⟨hrolled, htrial⟩ := bootImage_last_trial (e := e) (b := b) ht hb
    refine ⟨hrolled, htrial, fun hc => ?_⟩
    have hact : (countedRecord m.jpc.record).active = !m.jpc.record.active := by rw [countedRecord_of_last ht hb]
    obtain ⟨-, hs, -, -⟩ := bootImage_active (e := e) (b := b) (m := m) (by rw [hslot, hact, hc])
    rw [hs, hact]
  case earlier =>
    intro ht hb
    have hcount := countedRecord_of_earlier ht hb
    refine ⟨by rw [bootImage_trialBoots, hcount], fun hc => ?_⟩
    obtain ⟨-, hs, htr, -⟩ := bootImage_active (e := e) (b := b) (m := m) (by rw [hslot, hcount, hc])
    rw [hs, htr, hcount]
    exact ⟨rfl, ht⟩
  case started =>
    intro ht hc
    have hcount := countedRecord_of_no_trial ht
    obtain ⟨hfw, hs, -, hr⟩ := bootImage_active (e := e) (b := b) (m := m) (by rw [hslot, hcount, hc])
    rw [hfw, hs, hr, hcount]
    exact ⟨rfl, rfl, rfl⟩
  case fell =>
    intro ht hc
    have hcount := countedRecord_of_no_trial ht
    have himage := bootImage_inactive (e := e) (b := b) (m := m) (by rw [hslot, hcount]; exact hc)
    have hrec := invalidate_record (e := e) (b := b) (m := m)
    rw [hcount] at himage hrec
    obtain ⟨-, -, -, hvalid⟩ := fallBack_keeps (e := e) (b := b) (m := invalidate e (bootStart m b) b) m.jpc.record.active
    rw [himage]
    refine ⟨by rw [hvalid, hrec, invalidated_valid], fun hv ho => ?_, fun h => ?_⟩
    · rw [fallBack_other (by rw [hrec, invalidated_valid_other, hv]) (by rw [hslot, ho])]
      exact ⟨rfl, rfl, rfl⟩
    · exact fallBack_recovery (by rw [hrec, invalidated_valid_other, hslot]; exact h)

end Sys2Proof.Machine
end

section
/-!
O20 and O21. Restarts of the controller (R600 to R605): what a restart leaves in the controller, and the commands that cause one or end
it.
-/

namespace Sys2Proof.Machine

open Sys2Proof

/-! ### What survives the loss of the firmware -/

/-- The controller of `b` stands as that of `a`: its state, and what restarts are recorded by. -/
def SameController (a b : M) : Prop :=
  b.jpc.fw = a.jpc.fw ∧ b.jpc.restartCause = a.jpc.restartCause ∧ b.jpc.restarts = a.jpc.restarts

theorem SameController.trans {a b c : M} (h : SameController a b) (h' : SameController b c) : SameController a c := by
  obtain ⟨hfw, hcause, hcount⟩ := h
  obtain ⟨hfw', hcause', hcount'⟩ := h'
  exact ⟨hfw'.trans hfw, hcause'.trans hcause, hcount'.trans hcount⟩
theorem Reported.controller {a b : M} (h : Reported a b) : SameController a b := by
  unfold Reported at h
  rw [h]
  exact ⟨rfl, rfl, rfl⟩
theorem Reported.session {a b : M} (h : Reported a b) : b.jpc.session = a.jpc.session := by
  unfold Reported at h
  rw [h]

theorem endAttempt_jpc (e : Env) (m : M) : (endAttempt e m).jpc = m.jpc := by
  simp [endAttempt, setHoldDown, wr]

/-- Giving up an attempt ends its command, and leaves the controller as it was. -/
theorem abandonAttempt_controller (e : Env) (m : M) (cause : Nat) : SameController m (abandonAttempt e m cause) := by
  have hended : SameController m (endAttempt e m) := by simp [SameController, endAttempt_jpc]
  unfold abandonAttempt
  dsimp only
  split
  case isTrue => exact (Reported.refl m).controller
  case isFalse =>
    refine hended.trans (Reported.controller ?_)
    refine .trans ?_ (reported_finishCmd ..)
    exact .ite ((reported_log ..).trans (reported_postEvt ..)) (reported_log ..)

theorem loseFirmware_controller (e : Env) (m : M) : SameController m (loseFirmware e m) :=
  abandonAttempt_controller e (loseQuoins m fun o => ownerPath o = 5) 2
theorem loseFirmware_session (e : Env) (m : M) : (loseFirmware e m).jpc.session = none := rfl

theorem reported_restartRings (m : M) : Reported m (restartRings m) := .foldl (fun m _ => reported_setHead m ..) _ m

/-- Entering HALTED keeps the record of restarts. -/
theorem haltJpc_restarting {e : Env} {m : M} (h : m.jpc.fw = .restarting) (cause : Nat) :
    (haltJpc e m cause).jpc.fw = .halted ∧ (haltJpc e m cause).jpc.restartCause = m.jpc.restartCause
      ∧ (haltJpc e m cause).jpc.restarts = m.jpc.restarts ∧ (haltJpc e m cause).jpc.session = none := by
  unfold haltJpc
  simp only [h]
  rw [if_neg (by decide)]
  generalize hm : (m.setJpc fun j => { j with
    fw := .halted, hostHalt := j.hostHalt || cause == 2, clockHalt := j.clockHalt || cause == 3 }) = m'
  have hfw : m'.jpc.fw = .halted := by rw [← hm]; rfl
  have hcause : m'.jpc.restartCause = m.jpc.restartCause := by rw [← hm]; rfl
  have hcount : m'.jpc.restarts = m.jpc.restarts := by rw [← hm]; rfl
  have hrep : Reported (loseFirmware e m') (postEvt e (log e (loseFirmware e m') 0x0702 srcJpc (BitVec.ofNat 32 cause) 0 0)
      0x0003 0 (BitVec.ofNat 352 cause)) := (reported_log ..).trans (reported_postEvt ..)
  obtain ⟨hfw', hcause', hcount'⟩ := (loseFirmware_controller e m').trans hrep.controller
  exact ⟨hfw'.trans hfw, hcause'.trans hcause, hcount'.trans hcount, hrep.session.trans (loseFirmware_session e m')⟩

/-! ### A restart -/

/-- Whether this restart is the fourth within 60 s that the watchdog or a fault has caused (R605). -/
def fourthRestart (m : M) (cause : Nat) : Bool :=
  (cause == 3 || cause == 4) && match m.jpc.faultTicks with
    | _ :: _ :: t :: _ => decide (m.now < t + 3000000000)
    | _ => false

/-- The controller at a restart, with the tick of a fault noted. -/
def restartNoted (m : M) (cause : Nat) : M :=
  m.setJpc fun j => { j with
    fw := .restarting, hostHalt := false, restartCause := BitVec.ofNat 3 cause
    faultTicks := if cause == 3 || cause == 4 then (m.now :: m.jpc.faultTicks).take 4 else m.jpc.faultTicks
    restarts := if j.restarts == 0xFF then 0xFF else j.restarts + 1 }
/-- A restart once its entry is in the log. -/
def restartLogged (e : Env) (m : M) (cause : Nat) : M :=
  log e (restartRings (loseFirmware e (restartNoted m cause))) 0x0701 srcJpc (BitVec.ofNat 32 cause) 0 0

theorem restartLogged_controller (e : Env) (m : M) (cause : Nat) : SameController (restartNoted m cause) (restartLogged e m cause) :=
  (loseFirmware_controller ..).trans ((reported_restartRings _).trans (reported_log ..)).controller
theorem restartLogged_session (e : Env) (m : M) (cause : Nat) : (restartLogged e m cause).jpc.session = none :=
  ((reported_restartRings _).trans (reported_log ..)).session.trans (loseFirmware_session ..)

theorem restartJpc_eq {e : Env} {m : M} (h : m.jpc.clockHalt = false) (cause : Nat) : restartJpc e m cause =
    if fourthRestart m cause then haltJpc e (restartLogged e m cause) 1 else restartLogged e m cause := by
  have hfourth : ((cause == 3 || cause == 4) && match (if cause == 3 || cause == 4 then (m.now :: m.jpc.faultTicks).take 4
      else m.jpc.faultTicks).drop 3 with
      | t :: _ => decide (m.now < t + ticks60s)
      | [] => false) = fourthRestart m cause := by
    unfold fourthRestart
    cases cause == 3 || cause == 4
    case false => rfl
    case true => rcases m.jpc.faultTicks with _ | ⟨a, _ | ⟨b, _ | ⟨c, l⟩⟩⟩ <;> rfl
  rw [← hfourth]
  exact if_neg (by simp [h])

/-- Settles O21: the restart is recorded before its entry is logged, and halting keeps the record. -/
theorem restartRecordsCause : Obligations.RestartRecordsCause := by
  intro e m cause _ _ h
  obtain ⟨hfw, hcause, hcount⟩ := restartLogged_controller e m cause
  have hcount : (restartLogged e m cause).jpc.restarts = if m.jpc.restarts = 0xFF then 0xFF else m.jpc.restarts + 1 := by
    simp [hcount, restartNoted]
  obtain ⟨hfw', hcause', hcount', hnone⟩ := haltJpc_restarting (e := e) hfw 1
  rw [restartJpc_eq h]
  have hfourth : ((cause = 3 ∨ cause = 4) ∧ (match m.jpc.faultTicks with
      | _ :: _ :: t :: _ => decide (m.now < t + 3000000000)
      | _ => false) = true) ↔ fourthRestart m cause = true := by
    simp [fourthRestart]
  cases hf : fourthRestart m cause
  case true =>
    have hif := hfourth.mpr hf
    exact ⟨hcause'.trans hcause, hcount'.trans hcount, hnone, hfw'.trans (if_pos hif).symm⟩
  case false =>
    have hif := mt hfourth.mp (by simp [hf])
    exact ⟨hcause, hcount, restartLogged_session e m cause, hfw.trans (if_neg hif).symm⟩

/-! ### The commands -/

/-- The boot ROM runs at a restart, and at phase 2 of bring-up. -/
theorem exec_bootRom {s : State} (hl : Live s) {b : BootFacts}
    (hfw : s.m.jpc.fw = .restarting ∨ (s.m.jpc.fw = .rom ∧ s.m.boot.phase = 2 ∧ s.m.boot.stopped = false)) :
    exec (.bootRom b) s = .next (s.after (if (bootImage s.env s.m b).2 then
      resumeBringup s.env (fwReady s.env (bootImage s.env s.m b).1) s.m.jpc.pairAborted else (bootImage s.env s.m b).1)) := by
  have hstarts : (s.m.jpc.fw == .restarting || (s.m.jpc.fw == .rom && s.m.boot.phase == 2 && !s.m.boot.stopped)) = true := by
    rcases hfw with h | ⟨h, hp, hs⟩ <;> simp [*]
  change execBootRom b s = _
  exact act_next hl (if_pos hstarts)
theorem exec_watchdogExpiry {s : State} (hl : Live s) (hfw : s.m.jpc.fw = .running) : exec .watchdogExpiry s =
    .next (s.after (restartJpc s.env (elapseTo s.env s.m (s.m.jpc.wdogTick + 12500000)) 3)) := by
  change execWatchdogExpiry s = _
  exact act_next hl (if_neg (by simp [hfw]))
theorem exec_firmwareFault {s : State} (hl : Live s) (hfw : s.m.jpc.fw = .running) :
    exec .firmwareFault s = .next (s.after (restartJpc s.env s.m 4)) := by
  change execFirmwareFault s = _
  exact act_next hl (if_neg (by simp [hfw]))
theorem exec_jpcRestart {s : State} (hl : Live s) {cause : BitVec 3} (hc : cause ≠ 0) (hc' : cause.toNat < 5)
    (hfw : s.m.jpc.fw ≠ .halted ∨ cause = 2) : exec (.jpcRestart cause) s = .next (s.after (restartJpc s.env s.m cause.toNat)) := by
  change execJpcRestart cause s = _
  refine act_next hl (if_neg ?_)
  rcases hfw with h | h
  · simpa [h, hc'] using hc
  · simp [h]
theorem exec_jpcWdogWrite {s : State} (hl : Live s) (v : Word) :
    exec (.jpcWdogWrite v) s = .next (s.withM (s.m.setJpc fun j => { j with wdogTick := s.m.now })) := by
  change execJpcWdogWrite v s = _
  exact run_next hl rfl

/-- Settles O20. -/
theorem controllerStarts : Obligations.ControllerStarts := by
  refine ⟨fun s b hl hfw => ⟨fun hok => ?image, fun hok => ?none⟩, fun s hl => ⟨exec_watchdogExpiry hl, exec_firmwareFault hl,
    fun _ => exec_jpcRestart hl, exec_jpcWdogWrite hl⟩⟩
  case image => rw [exec_bootRom hl hfw, if_pos hok]
  case none => rw [exec_bootRom hl hfw, if_neg (by simp [hok])]

end Sys2Proof.Machine
end

section
/-!
O7. The commands that report (Table 13.4, R643, R644, R650). Each completes at once, and what it reports is read after its descriptor has
been taken, which changes the rings alone.
-/

namespace Sys2Proof.Machine

open Sys2Proof

@[simp] theorem took_link (s : State) (d : Desc) (l : Lnk) : (s.took d).link l = s.m.link l := by simp [M.link]
@[simp] theorem took_port (s : State) (d : Desc) (p : HPort) : (s.took d).port p = s.m.port p := by simp [M.port]
@[simp] theorem took_dac (s : State) (d : Desc) (n : Nat) : (s.took d).dac n = s.m.dac n := by simp [M.dac]
@[simp] theorem took_rd (s : State) (d : Desc) (e : Env) (w : Nat) : rd e (s.took d) w = rd e s.m w := by simp [rd]
@[simp] theorem took_modeActive (s : State) (d : Desc) : (s.took d).modeActive = s.m.modeActive := by simp [M.modeActive]
@[simp] theorem took_modeBit (s : State) (d : Desc) (n : Nat) : (s.took d).modeBit n = s.m.modeBit n := by simp [M.modeBit]
@[simp] theorem took_degraded (s : State) (d : Desc) : degraded (s.took d) = degraded s.m := by simp [degraded]

theorem exec_infoGet {s : State} {d : Desc} (h : Taken s d true true true) (hd : descOnly d [] = true) :
    exec (.infoGet d) s = .next (s.withM (s.ok d 0x0100 (s.took d)
      (resAt 8 s.fuse.caps.toNat ||| resAt 12 s.fuse.serial.toNat
        ||| resAt 28 (if s.m.jpc.fw = .recovery then 0 else s.m.jpc.version.toNat)
        ||| resAt 32 (bit s.m.pins.pairSide) ||| resAt 33 (0x58 + s.m.pins.smbStraps.toNat)
        ||| resAt 34 (if s.fuse.variant.ckl then s.m.twin.st.n else 0) ||| resAt 35 s.m.jpc.fw.n))) := by
  change execInfoGet d s = _
  refine (run_next h.1 (command_taken h rfl (by simp [hd]) rfl rfl rfl _)).trans ?_
  by_cases hfw : s.m.jpc.fw = .recovery <;> simp [runningVersion, State.env, hfw]

theorem exec_colophonGet {s : State} {d : Desc} (h : Taken s d true true true) (hd : descOnly d [(8, 1)] = true)
    (hp : descArg d 8 1 < 2) :
    exec (.colophonGet d) s = .next (s.withM (s.ok d 0x0101 (s.took d)
      (if descArg d 8 1 = 0 then
        resAt 8 (s.fuse.serial.extractLsb' 0 32).toNat ||| resAt 12 (s.fuse.serial.extractLsb' 32 8).toNat
         ||| resAt 13 (s.fuse.serial.extractLsb' 40 8).toNat ||| resAt 14 (s.fuse.serial.extractLsb' 48 8).toNat
         ||| resAt 16 (s.fuse.serial.extractLsb' 56 48).toNat ||| resAt 22 (s.fuse.serial.extractLsb' 104 8).toNat
         ||| resAt 24 (s.fuse.serial.extractLsb' 112 16).toNat
         ||| resAt 26 (bit (serialCheck (s.fuse.serial.setWidth 112) == s.fuse.serial.extractLsb' 112 16))
      else resAt 8 (bit s.fuse.sigRequired) ||| resAt 12 s.fuse.keyHash.toNat))) := by
  change execColophonGet d s = _
  exact run_next h.1 (command_taken h rfl (by simp [hd, hp]) rfl rfl rfl _)

theorem exec_fwVersion {s : State} {d : Desc} (h : Taken s d true true true) (hd : descOnly d [] = true) :
    exec (.fwVersion d) s = .next (s.withM (s.ok d 0x0102 (s.took d)
      (resAt 8 (if s.m.jpc.fw = .recovery then 0 else s.m.jpc.version.toNat)
        ||| resAt 12 (if (if s.m.jpc.slot then s.m.jpc.record.valid0 else s.m.jpc.record.valid1)
            then (s.m.jpc.versions.getD (1 - bit s.m.jpc.slot) 0).toNat else 0)
        ||| resAt 16 (bit s.m.jpc.slot) ||| resAt 17 (bit s.m.jpc.trialRun) ||| resAt 18 (bit s.m.jpc.record.rolledBack)
        ||| resAt 19 (bit s.m.jpc.sigChecked) ||| resAt 20 s.fuse.romVersion.toNat))) := by
  change execFwVersion d s = _
  refine (run_next h.1 (command_taken h rfl (by simp [hd]) rfl rfl rfl _)).trans ?_
  by_cases hfw : s.m.jpc.fw = .recovery <;> simp [runningVersion, State.env, hfw, apply_ite BitVec.toNat]

theorem linkAbsent_eq_false {e : Env} {l : Lnk} (h : l = .ckl → e.fuse.variant.ckl = true) : linkAbsent e (some l) = false := by
  cases l <;> simp_all [linkAbsent]

theorem exec_linkStatus {s : State} {d : Desc} {l : Lnk} (h : Taken s d true true false) (hd : descOnly d [(8, 1)] = true)
    (hl : linkArg d = some l) (hckl : l = .ckl → s.fuse.variant.ckl = true) :
    exec (.linkStatus d) s = .next (s.withM (s.ok d 0x0500 (s.took d)
      (resAt 8 (linkStat (s.m.link l)).toNat ||| resAt 12 (rd s.env s.m (rLinkCfg l)).toNat
        ||| (List.range 6).foldl (fun r k => r ||| resAt (16 + 4 * k) (linkView s.env (s.took d) l (l.base + 2 + k)).toNat) (0 : BitVec 448)
        ||| resAt 40 (s.m.link l).rxFailed.toNat ||| resAt 44 (s.m.link l).txFailed.toNat
        ||| resAt 48 (s.m.link l).winBad.length))) := by
  have hunit : linkAbsent s.env (linkArg d) = false := by rw [hl]; exact linkAbsent_eq_false hckl
  change execLinkStatus d s = _
  refine (run_next h.1 (command_taken h hunit (by simp [hd, hl]) rfl rfl rfl _)).trans ?_
  simp [hl]

theorem exec_pairStatus {s : State} {d : Desc} (h : Taken s d true true false) (hv : s.fuse.variant.ckl = true)
    (hd : descOnly d [] = true) :
    exec (.pairStatus d) s = .next (s.withM (s.ok d 0x0601 (s.took d)
      (resAt 8 (pairStat s.m).toNat ||| resAt 12 s.m.mir.serial.toNat ||| resAt 28 ((s.m.mir.sent - s.m.mir.answered) % 65536)
        ||| resAt 30 ((s.m.mir.received - s.m.mir.replied) % 65536)
        ||| resAt 32 (match s.m.mir.heard with
          | some t => min ((s.m.now - t) / 50) 0xFFFFFFFF
          | none => 0xFFFFFFFF)
        ||| resAt 36 (s.m.link .ckl).st.n ||| resAt 37 (bit s.m.pins.pairSide)))) := by
  have hstat : pairStat (s.took d) = pairStat s.m := by simp [pairStat]
  change execPairStatus d s = _
  refine (run_next h.1 (command_taken h (by simp [State.env, hv]) (by simp [hd]) rfl rfl rfl _)).trans ?_
  simp only [hstat, took_mir, took_now, took_link, took_pins] <;> rfl

/-- Settles O7. -/
theorem statusReports : Obligations.StatusReports := by
  refine ⟨fun s d h => ⟨exec_infoGet h, fun hd hp => ?general, fun hd hp => ?keys, exec_fwVersion h⟩,
    fun s d l h hd => exec_linkStatus h hd, fun s d h => exec_pairStatus h⟩
  case general => rw [exec_colophonGet h hd (by omega), if_pos hp]
  case keys => rw [exec_colophonGet h hd (by omega), if_neg (by omega)]

end Sys2Proof.Machine
end

section
/-!
O8. The MODE commands (R625 to R630, R686, R695, R698). A mask of modes fits 16 bits of the descriptor; each command is refused with the
least block code that holds against it.
-/

namespace Sys2Proof.Machine

open Sys2Proof

/-! ### A taken command against which several block codes hold (R617) -/

theorem refusal_leastBlock {s : State} {d : Desc} {c : Cmd} {m : M} (hm : m.jpc.fw = s.m.jpc.fw)
    (h : Taken s d c.any c.early c.recovery) (ha : c.absent = false) (hb : c.badArg = false) {b : Nat} {bs : List Nat}
    (hk : c.blocks = b :: bs) : refusal m d c (privileged s.m d) = some (0x13, bs.foldl min b) := by
  obtain ⟨-, hf, hp, -, -, -, -, -, hflags, hresv⟩ := h
  have hclass : (!c.any && !privileged s.m d) = false := by rcases hp with h | h <;> simp [h]
  have hrec : (m.jpc.fw == .recovery && !c.recovery) = false := by
    rw [hm]; rcases hf with ⟨hf, -⟩ | ⟨hf, hr, -⟩ <;> simp [*]
  simp [refusal, hclass, hrec, ha, hb, hk, hflags, hresv]

theorem command_leastBlock {s : State} {d : Desc} {c : Cmd} (h : Taken s d c.any c.early c.recovery) (ha : c.absent = false)
    (hb : c.badArg = false) {b : Nat} {bs : List Nat} (hk : c.blocks = b :: bs) (f : M → M × BitVec 448) :
    command s.env s.m d c f
      = postRsp s.env (s.took d) d c.opcode 0x13 (privileged s.m d) (conflictResult (s.took d) (bs.foldl min b)) := by
  rw [command_refused h (refusal_leastBlock (took_jpc_fw s d) h ha hb hk)]
  rfl

/-! ### The mask of modes -/

theorem modeMask_legal {d : Desc} {mask : BitVec 12} (hd : descOnly d [(8, 2)] = true) (h0 : mask ≠ 0) :
    (BitVec.ofNat 16 mask.toNat == 0 || decide (0x1000 ≤ (BitVec.ofNat 16 mask.toNat).toNat) || !descOnly d [(8, 2)]) = false := by
  have hne : BitVec.ofNat 16 mask.toNat ≠ 0 := fun hz => h0 (by bv_omega)
  have hlt : ¬ 0x1000 ≤ (BitVec.ofNat 16 mask.toNat).toNat := by bv_omega
  simp only [beq_eq_false_iff_ne.mpr hne, decide_eq_false hlt, hd, Bool.not_true, Bool.or_self]

theorem modeMask_bit (mask : BitVec 12) (n : Nat) : (BitVec.ofNat 16 mask.toNat).getLsbD n = mask.getLsbD n := by
  rw [BitVec.getLsbD_ofNat, BitVec.getLsbD]
  by_cases hn : n < 16
  · simp [hn]
  · simp [hn, Nat.testBit_lt_two_pow (Nat.lt_of_lt_of_le mask.isLt (Nat.pow_le_pow_right two_pos (by omega : 12 ≤ n)))]

theorem modeMask_width (mask : BitVec 12) : (BitVec.ofNat 16 mask.toNat).setWidth 12 = mask := by
  bv_omega

/-! ### MODE_SET -/

/-- The exit of MIRROR or PROOF which setting these modes would undo is not complete (R695). -/
def undoesExit (m : M) (mask : BitVec 12) : Bool :=
  mask.getLsbD mMirror && !m.modeBit mMirror && m.coh.sweeps.any (fun x => x.2 == .mirrorExit)
    || mask.getLsbD mProof && !m.modeBit mProof && m.proof.runs.any (fun r => r.state == 1)

def modeSetCmd (s : State) (mask : BitVec 12) : Cmd where
  opcode := 0x0200
  kept := modeResult s.m
  blocks := (if undoesExit s.m mask then [4] else []) ++ (if mask.getLsbD 11 then [6] else [])

theorem exec_modeSet {s : State} {d : Desc} {mask : BitVec 12} (h : Taken s d false false false) (hd : descOnly d [(8, 2)] = true)
    (hm : descArg d 8 2 = mask.toNat) (h0 : mask ≠ 0) (hv : BitVec.ofNat 16 mask.toNat &&& absentModes s.fuse.variant = 0) :
    exec (.modeSet d) s = .next (s.after (command s.env s.m d (modeSetCmd s mask) fun m =>
      (changeModes s.env m mask 0, modeResult (changeModes s.env m mask 0)))) := by
  change execModeSet d s = _
  refine act_next h.1 ?_
  simp only [hm, modeMask_bit, modeMask_width, modeMask_legal hd h0, State.env, hv, bne_self_eq_false]
  rfl

/-! ### MODE_CLEAR -/

def modeClearCmd (s : State) (mask : BitVec 12) : Cmd where
  opcode := 0x0201
  kept := modeResult s.m
  absent := mask.getLsbD 11 && !s.fuse.variant.ckl
  blocks := (if mask.getLsbD 11 then [6] else []) ++ (if mask.getLsbD mDrain && s.m.twin.drainByPair then [7] else [])
    ++ (if mask.getLsbD mDrain && s.m.twin.st == .split then [8] else [])

theorem exec_modeClear {s : State} {d : Desc} {mask : BitVec 12} (h : Taken s d false false false) (hd : descOnly d [(8, 2)] = true)
    (hm : descArg d 8 2 = mask.toNat) (h0 : mask ≠ 0) :
    exec (.modeClear d) s = .next (s.after (command s.env s.m d (modeClearCmd s mask) fun m =>
      (changeModes s.env m 0 mask, modeResult (changeModes s.env m 0 mask)))) := by
  change execModeClear d s = _
  refine act_next h.1 ?_
  simp only [hm, modeMask_bit, modeMask_width, modeMask_legal hd h0, State.env]
  rfl

/-! ### MODE_QUERY and the end of settling -/

theorem exec_modeQuery {s : State} {d : Desc} (h : Taken s d true true false) (hd : descOnly d [] = true) :
    exec (.modeQuery d) s = .next (s.withM (s.ok d 0x0202 (s.took d)
      (resAt 8 s.m.modeActive.toNat ||| resAt 10 s.m.mode.settling.toNat ||| resAt 12 s.m.twin.st.n
        ||| resAt 13 (bit (degraded s.m))))) := by
  change execModeQuery d s = _
  refine (run_next h.1 (command_taken h rfl (by simp [hd]) rfl rfl rfl _)).trans ?_
  simp [modeResult]

theorem exec_modeSettled {s : State} {n : Fin 12} (h : Live s) (hs : s.m.mode.settling.getLsbD n = true)
    (hf : finished s.m n = true) :
    exec (.modeSettled n) s = .next (s.after (s.m.setMode fun x => { x with settling := x.settling &&& ~~~((1 : BitVec 12) <<< n.val) })) := by
  change execModeSettled n s = _
  exact act_next h (if_pos (by simp only [hs, hf, Bool.and_self]))

/-- Settles O8. -/
theorem modesChangeAndSettle : Obligations.ModesChangeAndSettle := by
  refine ⟨fun s d mask => ⟨fun h hd hm h0 hsolo hv hmirror hproof => ?set, fun h hd hm h0 hsolo hdrain => ?clear, exec_modeQuery⟩,
    fun s d mask waits h hd hm h0 hw => ⟨fun hv => ⟨fun hwait => ?setSettling, fun hwait hsolo => ?setSolo⟩,
      fun hsolo hckl => ?clearSolo, fun hsolo hdrain => ⟨fun hpair => ?clearByPair, fun hpair hst => ?clearSplit⟩⟩,
    fun s n => exec_modeSettled⟩
  case set =>
    have hexit : undoesExit s.m mask = false := by
      simp only [undoesExit, Bool.or_eq_false_iff, Bool.and_eq_false_imp, Bool.and_eq_true, Bool.not_eq_true', and_imp]
      exact ⟨fun hb hoff => (hmirror hb).resolve_left (by simp [hoff]), fun hb hoff => (hproof hb).resolve_left (by simp [hoff])⟩
    rw [exec_modeSet h hd hm h0 hv]
    rw [command_taken h rfl rfl (by simp [modeSetCmd, hexit, -BitVec.getLsbD_eq_getElem, hsolo]) rfl rfl]
    rfl
  case clear =>
    have hnone : (modeClearCmd s mask).blocks = [] := by
      cases hb : mask.getLsbD mDrain
      · simp [modeClearCmd, -BitVec.getLsbD_eq_getElem, hsolo, hb]
      · simp [modeClearCmd, -BitVec.getLsbD_eq_getElem, hsolo, hdrain hb]
    rw [exec_modeClear h hd hm h0, command_taken h (by simp [modeClearCmd, -BitVec.getLsbD_eq_getElem, hsolo]) rfl hnone rfl rfl]
    rfl
  case setSettling =>
    have hexit : undoesExit s.m mask = true := by rw [← hwait, hw]; rfl
    rw [exec_modeSet h hd hm h0 hv,
      command_leastBlock h rfl rfl (b := 4) (bs := if mask.getLsbD 11 then [6] else []) (by simp [modeSetCmd, hexit])]
    split <;> rfl
  case setSolo =>
    have hexit : undoesExit s.m mask = false := by rw [← hwait, hw]; rfl
    rw [exec_modeSet h hd hm h0 hv, command_conflict h rfl rfl (b := 6) (by simp [modeSetCmd, hexit, -BitVec.getLsbD_eq_getElem, hsolo])]
    rfl
  case clearSolo =>
    rw [exec_modeClear h hd hm h0, command_leastBlock h (by simp [modeClearCmd, hckl]) rfl (b := 6) (bs := (if mask.getLsbD mDrain && s.m.twin.drainByPair then [7] else [])
      ++ (if mask.getLsbD mDrain && s.m.twin.st == .split then [8] else [])) (by simp only [modeClearCmd, hsolo]; rfl)]
    have hleast (x y : Bool) : ((if x then [7] else []) ++ (if y then [8] else [])).foldl min 6 = 6 := by decide +revert
    rw [hleast]
    rfl
  case clearByPair =>
    rw [exec_modeClear h hd hm h0, command_leastBlock h (by simp [modeClearCmd, -BitVec.getLsbD_eq_getElem, hsolo]) rfl (b := 7)
      (bs := if s.m.twin.st == .split then [8] else []) (by simp [modeClearCmd, -BitVec.getLsbD_eq_getElem, hsolo, hdrain, hpair])]
    split <;> rfl
  case clearSplit =>
    rw [exec_modeClear h hd hm h0, command_conflict h (by simp [modeClearCmd, -BitVec.getLsbD_eq_getElem, hsolo]) rfl (b := 8)
      (by simp [modeClearCmd, -BitVec.getLsbD_eq_getElem, hsolo, hdrain, hpair, hst])]
    rfl

end Sys2Proof.Machine
end

section
/-!
O10 and O11. The RAT commands (R151, R155, R163, R164) and the CACHE commands with the ends of range commands (R635 to R642).
-/

namespace Sys2Proof.Machine

open Sys2Proof

/-! ### RAT -/

theorem exec_ratWrite {s : State} {d : Desc} {n : Fin 64} (h : Taken s d false false false)
    (hd : descOnly d [(8, 1), (16, 16)] = true) (hn : descArg d 8 1 = n) (hr : (ratArg d).legal = true)
    (hhello : s.m.twin.st ≠ .hello) (hshed : s.m.twin.st ≠ .shed) :
    exec (.ratWrite d) s = .next { s.withM (s.ok d 0x0300 (s.took d)
        (resAt 8 (ratCrc (Tab.put (fun _ => RatEntry.empty) s.cfg.rat n (ratArg d))).toNat)) with
      cfg := { s.cfg with rat := Tab.put (fun _ => RatEntry.empty) s.cfg.rat n (ratArg d), ratWrites := s.cfg.ratWrites + 1 } } := by
  have hpair : (s.m.twin.st == .hello || s.m.twin.st == .shed) = false := by simp [hhello, hshed]
  change execRatWrite d s = _
  unfold execRatWrite
  rw [runCfg_live h.1]
  simp only [h.1.1, hn, hd, hr, hpair, Nat.not_le.mpr n.isLt, Bool.not_true, Bool.false_eq_true, if_false, Bool.or_self, decide_false,
    settings_taken (c := { opcode := 0x0300 }) h rfl rfl rfl rfl rfl, if_true]
  rw [show (⟨s.fuse, s.cfg⟩ : Env) = s.env from rfl, command_taken (c := { opcode := 0x0300 }) h rfl rfl rfl rfl rfl]

theorem exec_ratRead {s : State} {d : Desc} {n : Fin 64} (h : Taken s d true false false) (hd : descOnly d [(8, 1)] = true)
    (hn : descArg d 8 1 = n) :
    exec (.ratRead d) s = .next (s.withM (s.ok d 0x0301 (s.took d)
      (resAt 8 (ratEntry s.cfg.rat n).word0.toNat ||| resAt 16 (ratEntry s.cfg.rat n).word1.toNat
        ||| resAt 24 (ratCrc s.cfg.rat).toNat))) := by
  change execRatRead d s = _
  refine (run_next h.1 (command_taken h rfl (by simp [hd, hn]) rfl rfl rfl _)).trans ?_
  simp [hn, State.env]

theorem exec_ratSync {s : State} {d : Desc} (h : Taken s d false false false) (hd : descOnly d [] = true)
    (hroom : s.m.jpc.accepted.length < 16) :
    exec (.ratSync d) s = .next (s.after ((s.accepted d 0x0302 10 0 0 0).setCoh fun c => { c with
      spans := [], syncs := c.syncs ++ [(s.jobId, c.looked)] })) := by
  change execRatSync d s = _
  exact act_next h.1 (commandLater_taken h rfl (by simp [hd]) rfl rfl rfl hroom ..)

theorem exec_ratSyncTimeout {s : State} {id : Nat} {a : Accepted} (h : Live s) (ha : s.m.acceptedCmd id = some a)
    (hs : s.m.coh.syncs.any (fun x => x.1 == id) = true) (hf : s.m.jpc.fw = .running) :
    exec (.ratSyncTimeout id) s = .next (s.after
      (finishCmd s.env ((elapseTo s.env s.m (a.start + 500000)).setCoh fun c =>
        { c with syncs := c.syncs.filter fun x => x.1 != id }) id 0x18 0)) := by
  change execRatSyncTimeout id s = _
  exact act_next h (by simp only [ha, hs, hf, bne_self_eq_false, Bool.not_true, Bool.or_self, Bool.false_eq_true, if_false])

/-- Settles O10. -/
theorem ratAndSync : Obligations.RatAndSync :=
  ⟨fun _ _ _ => ⟨exec_ratWrite, exec_ratRead, exec_ratSync⟩, fun _ _ _ => exec_ratSyncTimeout⟩

/-! ### FLUSH_RANGE, INVAL_RANGE and the drain -/

/-- A FLUSH_RANGE that has been accepted: the sticks of the range are flushed and its Dirty lines noted. -/
def flushStarted (s : State) (d : Desc) (base top : Nat) : M :=
  let m := sweepLookups s.env (flushLines s.env (s.accepted d 0x0400 (descArg d 12 4) base top 0)
    (inRange (s.accepted d 0x0400 (descArg d 12 4) base top 0) base top) 5)
  m.updCmd s.jobId fun a => { a with todo := rangeLines m base top 2 }

theorem exec_flushRange {s : State} {d : Desc} {base top : Nat} (h : Taken s d false false false) (hbase : descArg d 16 8 = base)
    (htop : descArg d 24 8 = top) (hd : rangeBad d = false) (hroom : s.m.jpc.accepted.length < 16) :
    exec (.flushRange d) s = .next (s.after (if descArg d 8 1 = 1 then
      recallLines s.env (flushStarted s d base top) .recallFlush (rangeHeld (flushStarted s d base top) base top) s.jobId
      else flushStarted s d base top)) := by
  subst hbase htop
  change execFlushRange d s = _
  exact act_next h.1 (commandLater_taken h rfl hd rfl rfl rfl hroom ..)

theorem exec_invalRange {s : State} {d : Desc} {base top : Nat} {a m : M} {held ls : List Line} (h : Taken s d false false false)
    (hbase : descArg d 16 8 = base) (htop : descArg d 24 8 = top) (ha : a = s.accepted d 0x0401 (descArg d 12 4) base top 0)
    (hheld : held = if descArg d 8 1 = 1 then rangeHeld a base top else [])
    (hm : m = recallLines s.env (sweepLookups s.env (flushLines s.env a (inRange a base top) 5)) .recallInval held s.jobId)
    (hd : rangeBad d = false) (hroom : s.m.jpc.accepted.length < 16)
    (hls : ls = ((rangeLines m base top 1).filter fun l => !held.contains l)) :
    exec (.invalRange d) s = .next (s.after (invalLines s.env (m.updCmd s.jobId fun a => { a with
      todo := ls ++ ((rangeSlots m base top).filter fun l => !held.contains l && !ls.contains l).dedup }) s.jobId)) := by
  subst hls hm hheld ha hbase htop
  change execInvalRange d s = _
  exact act_next h.1 (commandLater_taken h rfl hd rfl rfl rfl hroom ..)

theorem exec_drainStart {s : State} {d : Desc} (h : Taken s d false false false) (hd : descOnly d [(12, 4)] = true)
    (hroom : s.m.jpc.accepted.length < 16) :
    exec (.drainStart d) s = .next (s.after
      (changeModes s.env (s.accepted d 0x0402 (descArg d 12 4) 0 0 0) (1 <<< mDrain) 0)) := by
  change execDrainStart d s = _
  exact act_next h.1 (commandLater_taken h rfl (by simp [hd]) rfl rfl rfl hroom ..)

theorem exec_drainStatus {s : State} {d : Desc} (h : Taken s d true false false) (hd : descOnly d [] = true) :
    exec (.drainStatus d) s = .next (s.withM (s.ok d 0x0403 (s.took d)
      (resAt 8 (dirtyPrimary (s.took d)).length ||| resAt 16 s.m.mode.drainedSince ||| resAt 24 s.m.modeActive.toNat
        ||| resAt 26 (bit s.m.twin.drainByPair + 2 * bit (drainClean (s.took d)))))) := by
  change execDrainStatus d s = _
  refine (run_next h.1 (command_taken h rfl (by simp [hd]) rfl rfl rfl _)).trans ?_
  simp only [took_mode, took_modeActive, took_twin]

theorem exec_rangeCmdComplete {s : State} {id : Nat} {a : Accepted} {status : Nat} (h : Live s) (ha : s.m.acceptedCmd id = some a)
    (ho : a.opcode ≠ 0x0401) (hdone : rangeDone s.env s.m a = some status) :
    exec (.rangeCmdComplete id) s = .next (s.after (finishCmd s.env s.m id status (rangeResult a))) := by
  change execRangeCmdComplete id s = _
  exact act_next h (by simp only [ha, beq_eq_false_iff_ne.mpr ho, Bool.false_eq_true, if_false, hdone])

theorem exec_rangeCmdLimit {s : State} {id t : Nat} {a : Accepted} (h : Live s) (ha : s.m.acceptedCmd id = some a)
    (ho : a.opcode = 0x0400 ∨ a.opcode = 0x0402) (hdone : rangeDone s.env s.m a = none) (ht : a.deadline = some t)
    (hf : s.m.jpc.fw = .running) :
    exec (.rangeCmdLimit id) s = .next (s.after (finishCmd s.env ((elapseTo s.env s.m t).setCoh fun c =>
      { c with waiting := c.waiting.filter fun r => r.op.host || r.cmd != id }) id 0x18 (rangeResult a))) := by
  have hop : (a.opcode == 0x0400 || a.opcode == 0x0401 || a.opcode == 0x0402) = true := by rcases ho with ho | ho <;> simp [ho]
  change execRangeCmdLimit id s = _
  exact act_next h (by simp only [ha, ht, hop, hdone, hf, Option.isSome_none, bne_self_eq_false, Bool.not_true, Bool.or_self,
    Bool.false_eq_true, if_false])

/-- Settles O11. -/
theorem cacheAndRanges : Obligations.CacheAndRanges := by
  refine ⟨fun s d base top hbase htop => ⟨fun a m ha hm h hd hroom => ?flush,
      fun a held m ls ha hheld hm h hd hroom hls => exec_invalRange h hbase htop ha hheld hm hd hroom hls,
      exec_drainStart, exec_drainStatus⟩,
    fun s id a h ha ho => ⟨fun status => exec_rangeCmdComplete h ha ?_, fun t hdone ht => exec_rangeCmdLimit h ha ho hdone ht⟩⟩
  case flush =>
    subst hm ha
    exact ⟨fun hrecall => by rw [exec_flushRange h hbase htop hd hroom, if_neg (by omega)]; rfl,
      fun hrecall => by rw [exec_flushRange h hbase htop hd hroom, if_pos hrecall]; rfl⟩
  · rcases ho with ho | ho <;> rw [ho] <;> decide

end Sys2Proof.Machine
end

section
/-!
What reporting leaves of the links, and what an accepted command starts from.
-/

namespace Sys2Proof.Machine

open Sys2Proof

theorem Reported.links {a b : M} (h : Reported a b) : b.links = a.links := by unfold Reported at h; rw [h]
theorem Reported.ports {a b : M} (h : Reported a b) : b.ports = a.ports := by unfold Reported at h; rw [h]

theorem reported_postRsp (e : Env) (m : M) (d : Desc) (opcode status : Nat) (priv : Bool) (res : BitVec 448) :
    Reported m (postRsp e m d opcode status priv res) := by
  have hring (a : M) (x : BitVec 512) : Reported a (match rspRing d.ring with
      | some 39 => pushDbg e.fuse.variant a x
      | some r => pushRing e.fuse.variant a r x
      | none => a) := by
    split
    · exact reported_pushDbg ..
    · exact reported_pushRing ..
    · exact .refl a
  have hnotice (a : M) (x : BitVec 512) (code status source opcode ring res) : Reported a (match evtRing d.ring with
      | some r => postOn e a r code d.tag status source opcode ring res
      | none => pushDbg e.fuse.variant a x) := by
    split
    · exact reported_postOn ..
    · exact reported_pushDbg ..
  exact (Reported.ite (reported_count ..) (.refl m)).trans ((hring ..).trans (.ite (hnotice ..) (.refl _)))

@[simp] theorem accepted_link (s : State) (d : Desc) (opcode limit base top : Nat) (res : BitVec 448) (l : Lnk) :
    (s.accepted d opcode limit base top res).link l = s.m.link l := by
  have hlinks : (s.accepted d opcode limit base top res).links = s.m.links :=
    (reported_postRsp ..).links.trans (by simp [State.booked])
  simp only [M.link, hlinks]

@[simp] theorem M.setLink_link (m : M) (l : Lnk) (x : LinkSt) : (m.setLink l x).link l = x := Tab.get_put_same

@[simp] theorem awaitLink_st (m : M) (l : Lnk) (id : Nat) : ((awaitLink m l id).link l).st = (m.link l).st := by
  simp [awaitLink]

end Sys2Proof.Machine
end

section
/-!
O12. The LINK commands and the timers of a full retrain (R645 to R649). None of them is blocked on an ACTIVE link that is neither fenced nor
held, but for a full retrain of the CKL of a pair.
-/

namespace Sys2Proof.Machine

open Sys2Proof

theorem linkBlocks_eq_nil {e : Env} {m : M} {l : Lnk} {full : Bool} (hf : linkFenced e m l = false) (hh : holdDown e m l = false)
    (ha : (m.link l).st = .active) (hp : full = true → l = .ckl →
      m.twin.st ≠ .hello ∧ m.twin.st ≠ .shed ∧ m.twin.st ≠ .paired ∧ m.twin.st ≠ .releasing) : linkBlocks e m l full = [] := by
  cases full
  · simp [linkBlocks, hf, hh, ha]
  · cases l <;> simp_all [linkBlocks]

theorem linkBusy_of_active {m : M} {l : Lnk} (ha : (m.link l).st = .active) : linkBusy m l = false := by
  simp [linkBusy, ha]

theorem exec_linkErrPolicy {s : State} {d : Desc} {l : Lnk} (h : Taken s d false false false) (hl : linkArg d = some l)
    (hckl : l = .ckl → s.fuse.variant.ckl = true) (hd : descOnly d [(8, 1), (10, 2)] = true) (h0 : descArg d 10 2 ≠ 0)
    (h1 : descArg d 10 2 < 4096) :
    exec (.linkErrPolicy d) s = .next (s.after (s.ok d 0x0503 (setThreshold s.env (s.took d) l (descArg d 10 2))
      (resAt 8 (threshold s.env s.m l)))) := by
  change execLinkErrPolicy d s = _
  refine (act_next h.1 (command_taken h (by rw [hl]; exact linkAbsent_eq_false hckl) (by simp [hl, hd, h0, Nat.not_le.mpr h1])
    rfl rfl rfl _)).trans ?_
  simp only [hl, Option.getD_some, threshold, took_rd]

/-- What the hypotheses of O12 say of a link: it is there, ACTIVE, and neither fenced nor held. -/
structure Retrainable (s : State) (d : Desc) (l : Lnk) : Prop where
  taken : Taken s d false false false
  arg : linkArg d = some l
  present : l = .ckl → s.fuse.variant.ckl = true
  room : s.m.jpc.accepted.length < 16
  unfenced : linkFenced s.env s.m l = false
  free : holdDown s.env s.m l = false
  active : (s.m.link l).st = .active

section
variable {s : State} {d : Desc} {l : Lnk} (h : Retrainable s d l)
include h

theorem Retrainable.unit : linkAbsent s.env (linkArg d) = false := by rw [h.arg]; exact linkAbsent_eq_false h.present
theorem Retrainable.unblocked : linkBlocks s.env s.m ((linkArg d).getD .hpa) false = [] := by
  rw [h.arg]; exact linkBlocks_eq_nil h.unfenced h.free h.active (by simp)
theorem Retrainable.idle : linkBusy s.m ((linkArg d).getD .hpa) = false := by
  rw [h.arg]; exact linkBusy_of_active h.active

theorem exec_linkRetrain (hd : descOnly d [(8, 2)] = true) (hk : descArg d 9 1 = 0) :
    exec (.linkRetrain d) s = .next (s.after (enterRetrain s.env (awaitLink (s.accepted d 0x0501 0 0 0 0) l s.jobId) l)) := by
  change execLinkRetrain d s = _
  refine (act_next h.taken.1 (commandLater_taken h.taken h.unit (by simp [hd, h.arg, hk]) h.unblocked rfl h.idle h.room ..)).trans ?_
  simp [h.arg, h.active]

theorem exec_linkRetrainFull (hd : descOnly d [(8, 2)] = true) (hk : descArg d 9 1 = 1)
    (hp : l = .ckl → s.m.twin.st ≠ .hello ∧ s.m.twin.st ≠ .shed ∧ s.m.twin.st ≠ .paired ∧ s.m.twin.st ≠ .releasing) {m : M}
    (hm : m = linkDown s.env (setHoldDown s.env (s.accepted d 0x0501 100 1 0 0) l true) l 0xC) :
    exec (.linkRetrainFull d) s = .next (s.after
      (awaitLink (m.setLink l { m.link l with fullHold := true, downReason := 0xC }) l s.jobId)) := by
  have hfree : linkBlocks s.env s.m ((linkArg d).getD .hpa) true = [] := by
    rw [h.arg]; exact linkBlocks_eq_nil h.unfenced h.free h.active fun _ => hp
  subst hm
  change execLinkRetrainFull d s = _
  refine (act_next h.taken.1 (commandLater_taken h.taken h.unit (by simp [hd, h.arg, hk]) hfree rfl h.idle h.room ..)).trans ?_
  cases hhost : l.host <;> simp [h.arg, h.active, hhost, LState.up]

theorem exec_linkWidth (hd : descOnly d [(8, 2)] = true) (h0 : descArg d 9 1 ≠ 0) (h1 : descArg d 9 1 ≤ groupCount l.allGroups) {m : M}
    (hm : m = setWidthMax s.env (s.accepted d 0x0502 0 0 0 0) l (descArg d 9 1)) :
    exec (.linkWidth d) s = .next (s.after
      (if (m.link l).st = .retrain then awaitLink m l s.jobId else finishCmd s.env m s.jobId 0 (linkResult (m.link l)))) := by
  subst hm
  change execLinkWidth d s = _
  refine (act_next h.taken.1 (commandLater_taken h.taken h.unit (by simp [hd, h.arg, h0, Nat.not_lt.mpr h1]) h.unblocked rfl h.idle
    h.room ..)).trans ?_
  simp only [h.arg, Option.getD_some, beq_iff_eq]

end

section
variable {s : State} {l : Lnk} {a : Accepted} (h : Live s) (ha : s.m.jpc.accepted = [a]) (hc : (s.m.link l).cmds = [a.id])
  (hb : a.base = 1)
include h ha hc hb

theorem exec_fullRetrainHoldEnd (hh : (s.m.link l).fullHold = true) {m : M} (hm : m = elapseTo s.env s.m (a.start + 500))
    (hf : linkFenced s.env (m.setLink l { m.link l with fullHold := false }) l = false) :
    exec (.fullRetrainHoldEnd l) s = .next (s.after
      (setHoldDown s.env (m.setLink l { m.link l with fullHold := false }) l false)) := by
  subst hm
  change execFullRetrainHoldEnd l s = _
  exact act_next h (by simp [ha, hc, hb, hh, hf])

theorem exec_linkCmdTimeout {t : Nat} (ht : a.deadline = some t) :
    exec (.linkCmdTimeout l) s = .next (s.after (finishLink s.env (elapseTo s.env s.m t) l 0x18 fun id =>
      a.id == id && decide (t ≤ (elapseTo s.env s.m t).now))) := by
  change execLinkCmdTimeout l s = _
  exact act_next h (by simp [ha, hc, hb, ht])

end

/-- Settles O12. -/
theorem linksAndFullRetrain : Obligations.LinksAndFullRetrain :=
  ⟨fun _ _ _ h hl hckl hroom hf hh =>
    ⟨fun hd ha => exec_linkRetrain ⟨h, hl, hckl, hroom, hf, hh, ha⟩ hd,
      fun hd ha hk hp _ => exec_linkRetrainFull ⟨h, hl, hckl, hroom, hf, hh, ha⟩ hd hk hp,
      fun hd ha h0 h1 _ => exec_linkWidth ⟨h, hl, hckl, hroom, hf, hh, ha⟩ hd h0 h1, exec_linkErrPolicy h hl hckl⟩,
    fun _ _ _ h ha hc hb => ⟨fun hh _ _ => exec_fullRetrainHoldEnd h ha hc hb hh, fun _ => exec_linkCmdTimeout h ha hc hb⟩⟩

end Sys2Proof.Machine
end

section
/-!
O13 and O14. The TWIN commands (R650 to R654) and the INK commands (R655, R656).
-/

namespace Sys2Proof.Machine

open Sys2Proof

/-! ### The TWIN commands -/

section
variable {s : State} {d : Desc} (h : Taken s d false false false) (hv : s.fuse.variant.ckl = true)
include h hv

theorem exec_pairStart (hroom : s.m.jpc.accepted.length < 16) (hd : descOnly d [(8, 4)] = true)
    (hlimit : descArg d 8 4 = 0 ∨ (10 ≤ descArg d 8 4 ∧ descArg d 8 4 ≤ 10000)) (hf : linkFenced s.env s.m .ckl = false)
    (hst : s.m.twin.st = .unpaired ∨ s.m.twin.st = .adopted ∨ s.m.twin.st = .deposed
      ∨ (s.m.twin.st = .split ∧ s.m.twin.drainOwn = true ∧ s.m.twin.drainTwin = true)) :
    exec (.pairStart d) s = .next (s.after (startAttempt s.env (s.accepted d 0x0600 0 0 0 0) s.jobId
      (if descArg d 8 4 = 0 then 500 else descArg d 8 4))) := by
  have hlegal : (s.m.twin.st == .unpaired || s.m.twin.st == .adopted || s.m.twin.st == .deposed
      || (s.m.twin.st == .split && s.m.twin.drainOwn && s.m.twin.drainTwin)) = true := by
    rcases hst with hst | hst | hst | ⟨hst, hown, htwin⟩ <;> simp [*]
  have hms : (descArg d 8 4 != 0 && (decide (descArg d 8 4 < 10) || decide (10000 < descArg d 8 4))) = false := by
    rcases hlimit with h0 | ⟨hmin, hmax⟩
    · simp [h0]
    · simp [Nat.not_lt.mpr hmin, Nat.not_lt.mpr hmax]
  change execPairStart d s = _
  exact act_next h.1 (commandLater_taken h (by simp [State.env, hv]) (by simp only [hms, hd, Bool.not_true, Bool.or_self])
    (by simp only [hf, hlegal, Bool.false_eq_true, if_false, if_true]) rfl rfl hroom ..)

theorem exec_pairRelease (hroom : s.m.jpc.accepted.length < 16) (hd : descOnly d [] = true) (hst : s.m.twin.st = .paired) :
    exec (.pairRelease d) s = .next (s.after (startShed s.env (((s.accepted d 0x0602 0 0 0 0).setTwin fun t =>
      { t with st := .releasing, catchup := 0 }).setMir fun r => { r with relCmd := s.jobId }))) := by
  change execPairRelease d s = _
  exact act_next h.1 (commandLater_taken h (by simp [State.env, hv]) (by simp [hd]) (by simp [hst]) rfl rfl hroom ..)

theorem exec_adoptRebuilt (hd : descOnly d [(8, 1)] = true) (hk : descArg d 8 1 = 1) (hst : s.m.twin.st = .adopted)
    (hp : s.m.twin.rebuildPending = true) :
    exec (.adoptRebuilt d) s = .next (s.after (s.ok d 0x0603 ((s.took d).setTwin fun t => { t with rebuildPending := false }) 0)) := by
  rw [exec_adoptRebuilt_live h.1, command_taken h (adoptRebuiltCmd_absent d hv) (adoptRebuiltCmd_badArg s hd hk)
    (by simp [adoptRebuiltCmd, hst, hp]) rfl rfl]
  rfl

theorem exec_adoptForce (hd : descOnly d [(8, 1)] = true) (hk : descArg d 8 1 = 2)
    (hst : s.m.twin.st = .suspect ∨ s.m.twin.st = .isolated) :
    exec (.adoptForce d) s = .next (s.after (s.ok d 0x0603 (adopt s.env (s.took d)) 0)) := by
  change execAdoptForce d s = _
  rcases hst with hst | hst <;>
    refine (act_next h.1 (command_taken h (by simp [State.env, hv]) (by simp [hd, hk]) (by simp [hst]) rfl rfl _)).trans ?_ <;>
    simp only [hst] <;> rfl

theorem exec_adoptForce_split (hd : descOnly d [(8, 1)] = true) (hk : descArg d 8 1 = 2) (hst : s.m.twin.st = .split) {m : M} {n : Nat}
    (hm : discardMirrors s.env (s.took d) = (m, n)) :
    exec (.adoptForce d) s = .next (s.after (s.ok d 0x0603
      (adopt s.env (log s.env m 0x060A srcCkl (BitVec.ofNat 32 n) 0 0)) (resAt 8 n))) := by
  change execAdoptForce d s = _
  refine (act_next h.1 (command_taken h (by simp [State.env, hv]) (by simp [hd, hk]) (by simp [hst]) rfl rfl _)).trans ?_
  simp only [hst, beq_self_eq_true, if_true, hm]

theorem exec_mirrorPolicy (hd : descOnly d [(8, 1)] = true) (hk : descArg d 8 1 < 2) :
    exec (.mirrorPolicy d) s = .next (s.withM (s.ok d 0x0604
      (wr s.env (s.took d) rScope (BitVec.ofNat 32 (descArg d 8 1))) (resAt 8 (fld (rd s.env s.m rScope) 0 1)))) := by
  change execMirrorPolicy d s = _
  refine (run_next h.1 (command_taken h (by simp [State.env, hv]) (by simp [hd, hk]) rfl rfl rfl _)).trans ?_
  simp only [took_rd]

end

/-- Settles O13. -/
theorem twinCommands : Obligations.TwinCommands := fun _ _ h hv hroom =>
  ⟨exec_pairStart h hv hroom, exec_pairRelease h hv hroom, exec_adoptRebuilt h hv, exec_adoptForce h hv,
    fun hd hk hst _ _ => exec_adoptForce_split h hv hd hk hst, exec_mirrorPolicy h hv⟩

/-! ### Commands that set settings -/

theorem settings_next {s : State} (h : Live s) {F : Fuses → Cfg → M → Cfg × M} {cfg : Cfg} {m : M} (hF : F s.fuse s.cfg s.m = (cfg, m)) :
    runCfg s F = .next { s.withM m with cfg := cfg } := by
  rw [runCfg_live h, hF]

/-- A command that sets settings at once: the settings it leaves, and its response. -/
theorem settingsCommand_taken {s : State} {d : Desc} {c : Cmd} {new : Cfg} {f : M → M × BitVec 448}
    (h : Taken s d c.any c.early c.recovery) (ha : c.absent = false) (hb : c.badArg = false) (hk : c.blocks = [])
    (hg : c.guard = false) (hu : c.busy = false) :
    (if !s.m.alive then (s.cfg, s.m) else
      (if served s.m d c && (refusal s.m d c (privileged s.m d)).isNone then new else s.cfg, command s.env s.m d c f))
      = (new, s.ok d c.opcode (f (s.took d)).1 (f (s.took d)).2) := by
  simp only [h.1.1, Bool.not_true, Bool.false_eq_true, if_false, settings_taken h ha hb hk hg hu, if_true,
    command_taken h ha hb hk hg hu]

/-! ### The INK commands -/

theorem exec_inkGrant {s : State} {d : Desc} {v : Nat} (hv : descArg d 8 4 = v) (h : Taken s d false false false)
    (hd : descOnly d [(8, 4)] = true) (h0 : v ≠ 0) (hmax : v ≤ 190000) (hfloor : s.cfg.floorNext.toNat ≤ v) :
    exec (.inkGrant d) s = .next { s.withM (s.ok d 0x0700 (s.took d) (resAt 8 s.cfg.grantNext.toNat)) with
      cfg := { s.cfg with grantNext := BitVec.ofNat 18 v } } := by
  subst hv
  change execInkGrant d s = _
  unfold execInkGrant inkSetting
  exact settings_next h.1 (settingsCommand_taken h rfl (by simp [hd, h0, Nat.not_lt.mpr hmax, Nat.not_lt.mpr hfloor]) rfl rfl rfl)

theorem exec_inkFloor {s : State} {d : Desc} {v : Nat} (hv : descArg d 8 4 = v) (h : Taken s d false false false)
    (hd : descOnly d [(8, 4)] = true) (hmax : v ≤ 190000) (hgrant : v ≤ s.cfg.grantNext.toNat) :
    exec (.inkFloor d) s = .next { s.withM (s.ok d 0x0701 (s.took d) (resAt 8 s.cfg.floorNext.toNat)) with
      cfg := { s.cfg with floorNext := BitVec.ofNat 18 v } } := by
  subst hv
  change execInkFloor d s = _
  unfold execInkFloor inkSetting
  exact settings_next h.1 (settingsCommand_taken h rfl (by simp [hd, Nat.not_lt.mpr hmax, Nat.not_lt.mpr hgrant]) rfl rfl rfl)

theorem exec_inkReport {s : State} {d : Desc} (h : Taken s d true false false) (hd : descOnly d [] = true) :
    exec (.inkReport d) s = .next (s.withM (s.ok d 0x0702 (s.took d)
      (resAt 8 ((rd s.env s.m 0x5005).toNat + (rd s.env s.m 0x5006).toNat * 2 ^ 32) ||| resAt 16 (rd s.env s.m 0x5007).toNat
        ||| resAt 20 (rd s.env s.m 0x5008).toNat ||| resAt 24 (rd s.env s.m 0x5009).toNat ||| resAt 28 s.m.ink.last.balance
        ||| resAt 32 s.m.ink.last.grant ||| resAt 36 s.m.ink.last.floor ||| resAt 40 (rd s.env s.m 0x500A).toNat
        ||| resAt 44 (bit s.m.ink.last.cap + 2 * bit (decide ((rd s.env s.m 0x5007).toNat < 40000)))))) := by
  change execInkReport d s = _
  refine (run_next h.1 (command_taken h rfl (by simp [hd]) rfl rfl rfl _)).trans ?_
  simp only [took_rd, took_ink]

theorem exec_inkPlanQuery {s : State} {d : Desc} (h : Taken s d true false false) (hd : descOnly d [] = true) :
    exec (.inkPlanQuery d) s = .next (s.withM (s.ok d 0x0703 (s.took d)
      (resAt 8 (planRecord s.m.ink.last [2, 4]) ||| resAt 16 (planRecord s.m.ink.last [3])
        ||| resAt 24 (planRecord s.m.ink.last [0]) ||| resAt 32 (planRecord s.m.ink.last [1])
        ||| resAt 40 (planRecord s.m.ink.last [5])))) := by
  change execInkPlanQuery d s = _
  refine (run_next h.1 (command_taken h rfl (by simp [hd]) rfl rfl rfl _)).trans ?_
  simp only [took_ink]

/-- Settles O14. -/
theorem inkCommands : Obligations.InkCommands := fun _ _ _ hv =>
  ⟨exec_inkGrant hv, exec_inkFloor hv, exec_inkReport, exec_inkPlanQuery⟩

end Sys2Proof.Machine
end

section
/-!
O15 and O16. The PATROL and PROOF commands with the ends of runs (R657 to R661, R744), and the PERF commands (R662 to R666).
-/

namespace Sys2Proof.Machine

open Sys2Proof

/-! ### PATROL and PROOF -/

theorem exec_patrolCfg {s : State} {d : Desc} (h : Taken s d false false false) (hd : descOnly d [(8, 6)] = true)
    (hmin : 60 ≤ descArg d 8 4) (hmax : descArg d 8 4 ≤ 10080) (h0 : descArg d 12 1 ≠ 0) (ht : descArg d 12 1 < 4)
    (hdiag : descArg d 13 1 < 2) :
    exec (.patrolCfg d) s = .next { s.withM (s.ok d 0x0800 (s.took d)
        (resAt 8 s.cfg.patrolMinutes.toNat ||| resAt 12 s.cfg.patrolTargets.toNat ||| resAt 13 (bit s.cfg.patrolDiag))) with
      cfg := { s.cfg with
        patrolMinutes := BitVec.ofNat 32 (descArg d 8 4), patrolTargets := BitVec.ofNat 2 (descArg d 12 1)
        patrolDiag := descArg d 13 1 == 1 } } := by
  change execPatrolCfg d s = _
  unfold execPatrolCfg
  exact settings_next h.1 (settingsCommand_taken h rfl
    (by simp [hd, h0, Nat.not_lt.mpr hmin, Nat.not_lt.mpr hmax, Nat.not_le.mpr ht, Nat.not_le.mpr hdiag]) rfl rfl rfl)

theorem exec_proofRun {s : State} {d : Desc} {i : ItemInfo} {r : Run} (hi : itemInfo s.fuse.variant (descArg d 8 2) = some i)
    (hr : r = ⟨s.m.proof.nextRun, BitVec.ofNat 16 (descArg d 8 2), descArg d 10 2, 0, 0, i.steps, false, false, 0, 0, 0, false, 0⟩)
    (h : Taken s d false false false) (hd : descOnly d [(8, 8)] = true) (hu : descArg d 10 2 < i.units)
    (hroom : s.m.jpc.accepted.length < 16) (hfar : descArg d 8 2 = 5 → s.fuse.variant.far = true)
    (hdac : descArg d 8 2 = 0x102 → dacPresent s.env (descArg d 10 2) = true) (hproof : s.m.modeBit mProof = true)
    (hoff : i.offline = true → s.m.modeBit mQuiesce = true ∧ s.m.mode.settling.getLsbD mQuiesce = false)
    (hfree : s.m.proof.runs.any (fun o => o.state == 1 && sameUnit o r) = false) :
    exec (.proofRun d) s = .next (s.after (startQueued (pruneRuns
      ((s.accepted d 0x0801 (descArg d 12 4) 0 0 (resAt 8 s.m.proof.nextRun.toNat)).setProof fun p => { p with
        runs := p.runs ++ [{ r with cmd := s.jobId }], nextRun := nextRunId p.nextRun })))) := by
  have hunit : ((descArg d 8 2 == 5 && !s.fuse.variant.far)
      || (descArg d 8 2 == 0x102 && decide (descArg d 10 2 < 8) && !dacPresent s.env (descArg d 10 2))) = false := by
    by_cases h5 : descArg d 8 2 = 5
    · simp [h5, hfar h5]
    · by_cases h102 : descArg d 8 2 = 0x102
      · simp [h102, hdac h102]
      · simp [h5, h102]
  have hblocks : ((if s.m.modeBit mProof then [] else [3]) ++ (if i.offline && !s.m.modeBit mQuiesce then [2] else [])
      ++ (if i.offline && s.m.modeBit mQuiesce && s.m.mode.settling.getLsbD mQuiesce then [4] else []) : List Nat) = [] := by
    cases ho : i.offline
    · simp [hproof]
    · obtain ⟨hq, hs⟩ := hoff ho
      simp only [hproof, hq, hs]
      rfl
  subst hr
  change execProofRun d s = _
  refine (act_next h.1 (commandLater_taken h (by simpa only [State.env] using hunit)
    (by simp only [State.env, hi, Option.map_some, Option.getD_some, hd, decide_eq_false (Nat.not_le.mpr hu)]; rfl)
    (by simpa only [State.env, hi, Option.map_some, Option.getD_some] using hblocks) rfl
    (by simpa only [State.env, hi, Option.map_some, Option.getD_some] using hfree) hroom ..)).trans ?_
  simp [State.env, State.booked, hi]

theorem exec_proofStatus {s : State} {d : Desc} {r : Run} (hr : knownRun s.m (BitVec.ofNat 16 (descArg d 8 2)) = some r)
    (h : Taken s d true false false) (hd : descOnly d [(8, 2)] = true) :
    exec (.proofStatus d) s = .next (s.withM (s.ok d 0x0802 (s.took d)
      (resAt 8 r.id.toNat ||| resAt 10 r.state ||| resAt 11 (r.step * 100 / r.steps)
        ||| resAt 12 (if r.state = 2 then r.verdict else 0) ||| resAt 14 r.item.toNat ||| resAt 16 r.faults))) := by
  change execProofStatus d s = _
  refine (run_next h.1 (command_taken h rfl (by simp [hr, hd]) rfl rfl rfl _)).trans ?_
  simp only [hr]

theorem exec_proofAbort {s : State} {d : Desc} {r : Run} (hr : knownRun s.m (BitVec.ofNat 16 (descArg d 8 2)) = some r)
    (hst : r.state ≠ 2) (h : Taken s d false false false) (hd : descOnly d [(8, 2)] = true) :
    exec (.proofAbort d) s = .next (s.withM (s.ok d 0x0803
      (stopRuns (s.took d) (fun x => x.id == BitVec.ofNat 16 (descArg d 8 2)) 0x1A) 0)) := by
  change execProofAbort d s = _
  exact run_next h.1 (command_taken h rfl (by simp [hr, hd]) (by simp [hr, hst]) rfl rfl _)

theorem exec_proofRunEnd {s : State} {id : BitVec 16} {r : Run} (h : Live s) (hr : s.m.runOf id = some r) (hf : s.m.jpc.fw = .running)
    (hst : r.state ≠ 2) (hend : r.stopping = true ∨ runReady r = true) :
    exec (.proofRunEnd id) s = .next (s.after (endRun s.env s.m r)) := by
  have hdone : (r.stopping || runReady r) = true := by simpa using hend
  change execProofRunEnd id s = _
  exact act_next h (by simp [hr, hf, hst, hdone])

theorem exec_proofRunLimit {s : State} {id : BitVec 16} {r : Run} {a : Accepted} {t : Nat} (h : Live s) (hr : s.m.runOf id = some r)
    (hf : s.m.jpc.fw = .running) (hst : r.state ≠ 2) (ha : s.m.acceptedCmd r.cmd = some a) (ht : a.deadline = some t)
    (hs : r.stopping = false) (hready : runReady r = false) (he : r.evacuating = false) (hw : r.window = false) :
    exec (.proofRunLimit id) s = .next (s.after
      (endRun s.env (stopRuns (elapseTo s.env s.m t) (fun x => x.id == id) 0x18) { r with stopping := true, status := 0x18 })) := by
  change execProofRunLimit id s = _
  exact act_next h (by simp [hr, hf, hst, ha, ht, hs, hready, he, hw])

/-- Settles O15. -/
theorem proofRuns : Obligations.ProofRuns :=
  ⟨fun _ _ => ⟨exec_patrolCfg, fun _ _ => exec_proofRun, fun _ => exec_proofStatus, fun _ => exec_proofAbort⟩,
    fun _ _ _ h hr hf hst => ⟨exec_proofRunEnd h hr hf hst, fun _ _ => exec_proofRunLimit h hr hf hst⟩⟩

/-! ### PERF -/

theorem exec_perfCfg {s : State} {d : Desc} {i n base p k w : Nat} {a m : M}
    (hplace : perfBlock (descArg d 8 1) (descArg d 9 1) = some (i, n)) (hg : ctrGroup i = some (base, p, k))
    (h : Taken s d false false false) (hd : descOnly d [(8, 8)] = true) (hn : descArg d 10 1 < n) (hflags : descArg d 11 1 < 4)
    (hq : descArg d 14 2 < 128) (hev : eventListed i (descArg d 12 2) = true) (hckl : descArg d 8 1 = 3 → s.fuse.variant.ckl = true)
    (hdac : descArg d 8 1 = 2 → descArg d 9 1 < s.fuse.variant.dacs) (hw : w = base + p + descArg d 10 1)
    (ha : a = wakeIsland s.env (s.took d) i) (hm : m = wr s.env a w (perfCtl (descArg d 11 1) (descArg d 12 2) (descArg d 14 2))) :
    exec (.perfCfg d) s = .next (s.withM (s.ok d 0x0900
      (if descArg d 11 1 / 2 % 2 = 1 then m.setCtr i (descArg d 10 1) 0 else m)
      (resAt 8 (descArg d 8 1 + descArg d 9 1 * 2 ^ 8 + descArg d 10 1 * 2 ^ 16 + fld (rd s.env a w) 23 1 * 2 ^ 24
        + fld (rd s.env a w) 0 16 * 2 ^ 32 + fld (rd s.env a w) 16 7 * 2 ^ 48)))) := by
  have hunit : ((descArg d 8 1 == 3 && !s.fuse.variant.ckl)
      || (descArg d 8 1 == 2 && decide (descArg d 9 1 < 8) && decide (s.fuse.variant.dacs ≤ descArg d 9 1))) = false := by
    by_cases h3 : descArg d 8 1 = 3
    · simp [h3, hckl h3]
    · by_cases h2 : descArg d 8 1 = 2
      · simp [h2, hdac h2]
      · simp [h3, h2]
  subst hm ha hw
  change execPerfCfg d s = _
  refine (run_next h.1 (command_taken h hunit (by simp [hplace, hd, Nat.not_le.mpr hn, Nat.not_le.mpr hflags, Nat.not_le.mpr hq, hev])
    rfl rfl rfl _)).trans ?_
  simp only [hplace, hg]

/-- What PERF_SNAP is checked for: an open grant lets it be used without privilege. -/
def perfSnapCmd (s : State) (d : Desc) : Cmd where
  opcode := 0x0901
  any := (d.ring.val < 2 && grantOpen s.env s.m .hpa) || ((d.ring.val == 5 || d.ring.val == 6) && grantOpen s.env s.m .hpb)
  badArg := !descOnly d []

/-- A descriptor that only a privileged ring may use is also taken where any ring may use it. -/
theorem Taken.forAny {s : State} {d : Desc} {early recovery : Bool} (h : Taken s d false early recovery) (any : Bool) :
    Taken s d any early recovery := by
  obtain ⟨hl, hf, hp, hrest⟩ := h
  exact ⟨hl, hf, .inr (hp.resolve_left nofun), hrest⟩

theorem exec_perfSnap {s : State} {d : Desc} (h : Taken s d false false false) (hd : descOnly d [] = true) :
    exec (.perfSnap d) s = .next (s.withM (startWalk ((s.took d).setPrf fun x => { x with
      snapCmd := some ⟨d, privileged s.m d, s.m.prf.busy⟩ }))) := by
  change execPerfSnap d s = _
  refine run_next h.1 ?_
  have hany : Taken s d (perfSnapCmd s d).any false false := h.forAny _
  have hs : served s.m d (perfSnapCmd s d) = true := served_of_taken hany
  have hr : refusal (takeDesc s.m d) d (perfSnapCmd s d) (privileged s.m d) = none :=
    refusal_of_taken (takeDesc s.m d) (takeDesc_fw ..) hany rfl (by simp [perfSnapCmd, hd]) rfl rfl rfl
  unfold perfSnapCmd at hs hr
  simp only [hs, hr, Bool.not_true, Bool.false_eq_true, if_false]
  rw [show (takeDesc s.m d).prf = s.m.prf from took_prf s d]
  rfl

theorem exec_sampleCfg {s : State} {d : Desc} (h : Taken s d false false false) (hv : s.fuse.variant.sample = true)
    (hd : descOnly d [(8, 3)] = true) (hmin : 4 ≤ descArg d 8 1) (hmax : descArg d 8 1 ≤ 20) (h0 : descArg d 9 1 ≠ 0)
    (hm : descArg d 9 1 < 4) (hdither : descArg d 10 1 < 2) :
    exec (.sampleCfg d) s = .next { s.withM (s.ok d 0x0902 (resample (s.took d))
        (resAt 8 (s.cfg.smpExp.toNat + 2 ^ 8 * s.cfg.smpMask.toNat + 2 ^ 16 * bit s.cfg.smpDither))) with
      cfg := { s.cfg with
        smpExp := BitVec.ofNat 5 (descArg d 8 1), smpMask := BitVec.ofNat 2 (descArg d 9 1), smpDither := descArg d 10 1 == 1 } } := by
  change execSampleCfg d s = _
  unfold execSampleCfg
  exact settings_next h.1 (settingsCommand_taken h (by simp [hv])
    (by simp [hd, h0, Nat.not_lt.mpr hmin, Nat.not_lt.mpr hmax, Nat.not_le.mpr hm, Nat.not_le.mpr hdither]) rfl rfl rfl)

theorem exec_perfUserGrant {s : State} {d : Desc} (h : Taken s d false false false) (hd : descOnly d [(8, 2)] = true)
    (hp : descArg d 8 1 < 2) (ho : descArg d 9 1 < 2) :
    exec (.perfUserGrant d) s = .next (s.withM (s.ok d 0x0903
      (wr s.env (s.took d) rUserGrant (setFld (rd s.env s.m rUserGrant) (descArg d 8 1) 1 (descArg d 9 1)))
      (resAt 8 (fld (rd s.env s.m rUserGrant) (descArg d 8 1) 1)))) := by
  change execPerfUserGrant d s = _
  refine (run_next h.1 (command_taken h rfl (by simp [hd, Nat.not_le.mpr hp, Nat.not_le.mpr ho]) rfl rfl rfl _)).trans ?_
  simp only [took_rd]

/-- Settles O16. -/
theorem perfCommands : Obligations.PerfCommands := fun _ _ =>
  ⟨fun _ _ _ _ _ hplace hg h hd hn hflags hq hev hckl hdac _ _ _ => exec_perfCfg hplace hg h hd hn hflags hq hev hckl hdac,
    exec_perfSnap, exec_sampleCfg, exec_perfUserGrant⟩

end Sys2Proof.Machine
end

section
/-!
O17. The LOG commands (R667 to R669). What a read of an entry returns depends on the errata logic alone.
-/

namespace Sys2Proof.Machine

open Sys2Proof

theorem readEntry_congr {a b : M} (h : b.err = a.err) (x : LogEntry) (i : Option Word) : readEntry b x i = readEntry a x i := by
  simp only [readEntry, logWords, h]

theorem exec_logRead_log {s : State} {d : Desc} {j : Word} {x : LogEntry} (h : Taken s d false true false) (hd : descOnly d [(8, 5)] = true)
    (hsrc : descArg d 12 1 = 0) (hj : logIndex s.m (BitVec.ofNat 32 (descArg d 8 4)) = some j)
    (hx : s.m.err.log.find? (fun y => y.1 == j) = some (j, x)) (hbad : s.m.err.bad = []) :
    exec (.logRead d) s = .next (s.withM (s.ok d 0x0A00 (s.took d)
      (resAt 8 j.toNat ||| resAt 12 s.m.err.oldest.toNat ||| resAt 16 s.m.err.next.toNat ||| resAt 20 (readEntry s.m x (some j))))) := by
  change execLogRead d s = _
  refine (run_next h.1 (command_taken h rfl (by simp [hd, hsrc]) (by simp [hsrc, hj, hx]) rfl rfl _)).trans ?_
  simp [hsrc, hj, hx, logFound, hbad, readEntry_congr (took_err s d)]

theorem exec_logRead_slip {s : State} {d : Desc} {x : LogEntry} (h : Taken s d false true false) (hd : descOnly d [(8, 5)] = true)
    (hsrc : descArg d 12 1 = 1) (hi : descArg d 8 4 < 8) (hx : slipEntry s.m (descArg d 8 4) = some x) :
    exec (.logRead d) s = .next (s.withM (s.ok d 0x0A00 { s.took d with free := s.m.free + 2 }
      (resAt 8 (descArg d 8 4) ||| resAt 12 (Config.freeWord s.m.free).toNat ||| resAt 16 (Config.freeWord (s.m.free + 1)).toNat
        ||| resAt 20 (readEntry s.m x none)))) := by
  have hindex : (BitVec.ofNat 32 (descArg d 8 4)).toNat = descArg d 8 4 := by rw [BitVec.toNat_ofNat]; omega
  change execLogRead d s = _
  refine (run_next h.1 (command_taken h rfl (by simp only [hd, hsrc, hindex, decide_eq_false (Nat.not_le.mpr hi)]; rfl)
    (by simp only [hsrc, hindex, hx]; rfl) rfl rfl _)).trans ?_
  have hentry : readEntry { s.took d with free := s.m.free + 2 } x none = readEntry s.m x none := readEntry_congr (took_err s d) x none
  simp only [hsrc, hindex, hx, Nat.one_ne_zero, if_false, Option.map_some, took_free, hentry]
  rfl

theorem exec_logClear_log {s : State} {d : Desc} (h : Taken s d false false false) (hd : descOnly d [(8, 1)] = true)
    (ht : descArg d 8 1 = 1) (hg : s.m.err.degraded = false) :
    exec (.logClear d) s = .next (s.withM (s.ok d 0x0A01
      (log s.env ((s.took d).setErr fun r => { r with log := [], oldest := r.next, bad := [] }) 0x0A02 31 1
        (BitVec.ofNat 32 s.m.err.log.length) 0) (resAt 8 s.m.err.next.toNat))) := by
  change execLogClear d s = _
  refine (run_next h.1 (command_taken h rfl (by simp [hd, ht]) (by simp [hg]) rfl rfl _)).trans ?_
  simp [ht]

theorem exec_logClear_slip {s : State} {d : Desc} (h : Taken s d false false false) (hd : descOnly d [(8, 1)] = true)
    (ht : descArg d 8 1 = 2) :
    exec (.logClear d) s = .next (s.withM (s.ok d 0x0A01
      (log s.env ((s.took d).setErr fun r => { r with slip := [] }) 0x0A02 31 2 (BitVec.ofNat 32 s.m.err.slip.length) 0)
      (resAt 8 s.m.err.next.toNat))) := by
  change execLogClear d s = _
  refine (run_next h.1 (command_taken h rfl (by simp [hd, ht]) (by simp [ht]) rfl rfl _)).trans ?_
  simp [ht]

theorem exec_logPolicy {s : State} {d : Desc} (h : Taken s d false false false) (hd : descOnly d [(8, 1), (12, 4)] = true) :
    exec (.logPolicy d) s = .next { s.withM (s.ok d 0x0A02 (s.took d)
        (resAt 8 s.cfg.logSeverity.toNat ||| resAt 12 s.cfg.logClasses.toNat)) with
      cfg := { s.cfg with logSeverity := BitVec.ofNat 8 (descArg d 8 1), logClasses := BitVec.ofNat 32 (descArg d 12 4) } } := by
  change execLogPolicy d s = _
  unfold execLogPolicy
  exact settings_next h.1 (settingsCommand_taken h rfl (by simp [hd]) rfl rfl rfl)

/-- Settles O17. -/
theorem logCommands : Obligations.LogCommands := fun _ _ =>
  ⟨fun _ _ => exec_logRead_log, fun _ => exec_logRead_slip, exec_logClear_log, exec_logClear_slip, exec_logPolicy⟩

end Sys2Proof.Machine
end

section
/-!
O18. The FW commands and the end of a verification (R594 to R599, R671 to R674).
-/

namespace Sys2Proof.Machine

open Sys2Proof

/-! ### FW_STAGE -/

/-- The state with the counter of free values at `n`. -/
def State.withFree (s : State) (n : Nat) : State := { s with m := { s.m with free := n } }

theorem State.withFree_env (s : State) (n : Nat) : (s.withFree n).env = s.env := rfl
theorem State.withFree_ok (s : State) (n : Nat) (d : Desc) (opcode : Nat) (m : M) (res : BitVec 448) :
    (s.withFree n).ok d opcode m res = s.ok d opcode m res := rfl
theorem Taken.withFree {s : State} {d : Desc} {any early recovery : Bool} (h : Taken s d any early recovery) (n : Nat) :
    Taken (s.withFree n) d any early recovery := h

theorem stagingSlot_took (s : State) (d : Desc) : stagingSlot (s.took d) = stagingSlot s.m := by simp [stagingSlot]

/-- The bytes that a descriptor of FW_STAGE carries. -/
def stagedBytes (d : Desc) (len : Nat) : List (BitVec 8) := (List.range len).map fun k => BitVec.ofNat 8 (descArg d (16 + k) 1)

/-- The open session is the one of the descriptor's path. -/
def stageMine (s : State) (d : Desc) : Bool := s.m.jpc.session.any fun x => x.path == ringPath d.ring
/-- The bytes that the session still buffers. -/
def stageLeft (s : State) (d : Desc) : Nat :=
  match s.m.jpc.session with
  | some x => if descArg d 8 4 = 0 then 0 else x.buffered - Config.activity s.m.free
  | none => 0
def fwStageCmd (s : State) (d : Desc) : Cmd where
  opcode := 0x0B00
  recovery := true
  badArg := descArg d 12 2 == 0 || decide (48 < descArg d 12 2) || decide (0x300000 < descArg d 8 4 + descArg d 12 2)
    || (stageMine s d && descArg d 8 4 != 0
      && descArg d 8 4 != ((s.m.jpc.session.filter fun x => x.path == ringPath d.ring).map (·.next)).getD 0)
    || !descOnly d [(8, 6), (16, descArg d 12 2)]
  blocks := if s.m.jpc.session.isSome && !stageMine s d || s.m.jpc.session.isNone && descArg d 8 4 != 0 then [0xD] else []
  busy := decide (65536 < stageLeft s d + descArg d 12 2)
/-- What a chunk leaves: at offset 0 the staging slot is no longer valid; its bytes stand in the slot, and the session goes on. -/
def stageChunk (d : Desc) (left : Nat) (m : M) : M :=
  let a := if descArg d 8 4 = 0 then writeRecord m fun r => r.setValid (stagingSlot m) false else m
  (putFlash a (slotBase (stagingSlot m) + descArg d 8 4) (stagedBytes d (descArg d 12 2))).setJpc fun j => { j with
    session := some ⟨ringPath d.ring, descArg d 8 4 + descArg d 12 2, left + descArg d 12 2⟩ }

theorem exec_fwStage {s : State} {d : Desc} (h : Taken s d false false true) (ha : (fwStageCmd s d).badArg = false)
    (hk : (fwStageCmd s d).blocks = []) (hu : (fwStageCmd s d).busy = false) :
    exec (.fwStage d) s = .next (s.withM (s.ok d 0x0B00
      (stageChunk d (stageLeft s d) ((s.withFree (s.m.free + bit (stageMine s d))).took d)) (resAt 8 (descArg d 8 4 + descArg d 12 2)))) := by
  have hserved : served s.m d (fwStageCmd s d) = true := served_of_taken h
  have hcounted : (if served s.m d (fwStageCmd s d) && stageMine s d then { s.m with free := s.m.free + 1 } else s.m)
      = (s.withFree (s.m.free + bit (stageMine s d))).m := by
    cases hm : stageMine s d
    · simp [bit, State.withFree]
    · simp only [hserved, Bool.and_self, if_true]; rfl
  change execFwStage d s = _
  refine run_next h.1 ?_
  change command s.env (if served s.m d (fwStageCmd s d) && stageMine s d then { s.m with free := s.m.free + 1 } else s.m) d
    (fwStageCmd s d) (fun m => (stageChunk d (stageLeft s d) m, resAt 8 (descArg d 8 4 + descArg d 12 2))) = _
  rw [hcounted, ← s.withFree_env (s.m.free + bit (stageMine s d)), command_taken (h.withFree _) rfl ha hk rfl hu, State.withFree_ok]
  rfl

section
variable {s : State} {d : Desc} {off len : Nat} (hoff : descArg d 8 4 = off) (hlen : descArg d 12 2 = len)
  (h : Taken s d false false true) (hd : descOnly d [(8, 6), (16, len)] = true) (h0 : 0 < len) (h48 : len ≤ 48)
include hoff hlen h hd h0 h48

theorem exec_fwStage_first (hz : off = 0) (hs : ∀ x, s.m.jpc.session = some x → x.path = ringPath d.ring) {m : M}
    (hm : m = putFlash (writeRecord ((s.withFree (s.m.free + bit s.m.jpc.session.isSome)).took d)
      fun r => r.setValid (stagingSlot s.m) false) (slotBase (stagingSlot s.m)) (stagedBytes d len)) :
    exec (.fwStage d) s = .next (s.withM (s.ok d 0x0B00
      (m.setJpc fun j => { j with session := some ⟨ringPath d.ring, len, len⟩ }) (resAt 8 len))) := by
  have hmine : stageMine s d = s.m.jpc.session.isSome := by
    cases hx : s.m.jpc.session <;> simp_all [stageMine]
  have hleft : stageLeft s d = 0 := by
    cases hx : s.m.jpc.session <;> simp_all [stageLeft]
  subst hm hz
  rw [exec_fwStage h (by simp [fwStageCmd, hoff, hlen, hd]; omega) (by cases hx : s.m.jpc.session <;> simp [fwStageCmd, hoff, hmine, hx]) (by simp [fwStageCmd, hleft, hlen]; omega)]
  simp only [stageChunk, hmine, hleft, hoff, hlen, stagingSlot_took, Nat.zero_add, Nat.add_zero, if_true]
  rfl

theorem exec_fwStage_next {x : Session} {left : Nat} (hx : s.m.jpc.session = some x) (hpath : x.path = ringPath d.ring) (hnext : x.next = off)
    (hleft : left = x.buffered - Config.activity s.m.free) (hpos : 0 < off) (hmax : off + len ≤ 0x300000) (hroom : left + len ≤ 65536)
    {m : M} (hm : m = putFlash ((s.withFree (s.m.free + 1)).took d) (slotBase (stagingSlot s.m) + off) (stagedBytes d len)) :
    exec (.fwStage d) s = .next (s.withM (s.ok d 0x0B00
      (m.setJpc fun j => { j with session := some ⟨ringPath d.ring, off + len, left + len⟩ }) (resAt 8 (off + len)))) := by
  have hmine : stageMine s d = true := by simp [stageMine, hx, hpath]
  have hleft' : stageLeft s d = left := by simp [stageLeft, hx, hoff, hleft]; omega
  subst hm
  rw [exec_fwStage h (by simp [fwStageCmd, hoff, hlen, hd, hx, hpath, hnext, Option.filter]; omega) (by simp [fwStageCmd, hx, hmine])
    (by simp [fwStageCmd, hleft', hlen]; omega)]
  simp only [stageChunk, hmine, hleft', hoff, hlen, stagingSlot_took, if_neg (Nat.ne_of_gt hpos)]
  rfl

end

/-! ### FW_COMMIT, FW_RESTART and FW_ROLLBACK -/

theorem exec_fwCommitTrial {s : State} {d : Desc} {x : Session} (hx : s.m.jpc.session = some x) (hpath : x.path = ringPath d.ring)
    (h : Taken s d false false true) (hd : descOnly d [(8, 1)] = true) (hk : descArg d 8 1 = 1) (hroom : s.m.jpc.accepted.length < 16) :
    exec (.fwCommitTrial d) s = .next (s.withM (s.accepted d 0x0B01 0 0 0 0)) := by
  change execFwCommitTrial d s = _
  exact run_next h.1 (commandLater_taken h rfl (by simp [hd, hk]) (by simp [hx, hpath]) rfl rfl hroom ..)

theorem exec_fwCommitFinal {s : State} {d : Desc} (h : Taken s d false false false) (hd : descOnly d [(8, 1)] = true)
    (hk : descArg d 8 1 = 2) (ht : s.m.jpc.trialRun = true) :
    exec (.fwCommitFinal d) s = .next (s.withM (s.ok d 0x0B01
      ((writeRecord (s.took d) fun r => { r with trial := false }).setJpc fun j => { j with trialRun := false }) 0)) := by
  change execFwCommitFinal d s = _
  exact run_next h.1 (command_taken h rfl (by simp [hd, hk]) (by simp [ht]) rfl rfl _)

/-- A command that answers and then restarts the controller. -/
theorem thenRestart_taken {s : State} {d : Desc} {c : Cmd} (h : Taken s d c.any c.early c.recovery) (ha : c.absent = false)
    (hb : c.badArg = false) (hk : c.blocks = []) (hg : c.guard = false) (hu : c.busy = false) (f : M → M) :
    thenRestart s.env s.m d c f = restartJpc s.env (s.ok d c.opcode (f (s.took d)) 0) 1 := by
  simp only [thenRestart, settings_taken h ha hb hk hg hu, if_true, command_taken h ha hb hk hg hu]

theorem exec_fwRestart {s : State} {d : Desc} (h : Taken s d false false true) (hd : descOnly d [] = true) :
    exec (.fwRestart d) s = .next (s.after (restartJpc s.env (s.ok d 0x0B02 (s.took d) 0) 1)) := by
  change execFwRestart d s = _
  exact act_next h.1 (thenRestart_taken h rfl (by simp [hd]) rfl rfl rfl _)

/-- Outside RECOVERY the staging slot is the one that does not run. -/
theorem stagingSlot_of_taken {s : State} {d : Desc} {any early : Bool} (h : Taken s d any early false) :
    stagingSlot s.m = !s.m.jpc.slot := by
  obtain ⟨-, ⟨hf, -⟩ | ⟨-, hr, -⟩, -⟩ := h
  · simp [stagingSlot, hf]
  · exact absurd hr nofun

theorem exec_fwRollback {s : State} {d : Desc} (h : Taken s d false false false) (hd : descOnly d [] = true)
    (hv : s.m.jpc.record.valid (!s.m.jpc.slot) = true) :
    exec (.fwRollback d) s = .next (s.after (restartJpc s.env (s.ok d 0x0B03
      (writeRecord (s.took d) fun r => { r with active := !s.m.jpc.slot, trial := false }) 0) 1)) := by
  change execFwRollback d s = _
  refine (act_next h.1 (thenRestart_taken h rfl (by simp [hd]) (by simp [stagingSlot_of_taken h, hv]) rfl rfl _)).trans ?_
  simp only [stagingSlot_took, stagingSlot_of_taken h]

/-! ### The end of a verification -/

/-- The session once its image is verified: nothing of it is buffered any more. -/
def verifiedSession (m : M) : M := m.setJpc fun j => { j with session := j.session.map fun x => { x with buffered := 0 } }

section
variable {s : State} {cause : BitVec 4} {a : Accepted} (h : Live s) (hf : s.m.jpc.fw = .running ∨ s.m.jpc.fw = .recovery)
  (ha : s.m.jpc.accepted.find? (fun a => a.opcode == 0x0B01) = some a)
include h hf ha

theorem exec_fwVerifyDone_good (hc : imageCause s.fuse cause = 0) {base : Nat} (hb : base = slotBase (stagingSlot s.m) + 12) :
    exec (.fwVerifyDone cause) s = .next (s.withM (endAccepted s.env
      ((writeRecord (verifiedSession s.m)
        fun r => { r.setValid (stagingSlot s.m) true with active := stagingSlot s.m, trial := true, trialBoots := 0 }).setJpc
        fun j => { j with
          session := none, versions := j.versions.set (bit (stagingSlot s.m))
            (flashAt s.m (base + 3) ++ flashAt s.m (base + 2) ++ flashAt s.m (base + 1) ++ flashAt s.m base) }) a 0 0)) := by
  have hfw : (s.m.jpc.fw != .running && s.m.jpc.fw != .recovery) = false := by rcases hf with hf | hf <;> simp [hf]
  subst hb
  change execFwVerifyDone cause s = _
  refine run_next h ?_
  simp only [ha, hfw, Bool.false_eq_true, if_false]
  rw [if_pos (by simp [State.env, hc])]
  rfl

theorem exec_fwVerifyDone_bad (hc : imageCause s.fuse cause ≠ 0) :
    exec (.fwVerifyDone cause) s = .next (s.withM (endAccepted s.env
      ((verifiedSession s.m).setJpc fun j => { j with failCause := imageCause s.fuse cause }) a 0x11
        (resAt 8 (imageCause s.fuse cause).toNat))) := by
  have hfw : (s.m.jpc.fw != .running && s.m.jpc.fw != .recovery) = false := by rcases hf with hf | hf <;> simp [hf]
  change execFwVerifyDone cause s = _
  refine run_next h ?_
  simp only [ha, hfw, Bool.false_eq_true, if_false]
  rw [if_neg (by simpa [State.env] using hc)]
  rfl

end

/-- Settles O18. -/
theorem firmwareImages : Obligations.FirmwareImages := by
  refine ⟨fun s d off len hoff hlen =>
    ⟨fun m hm h hd hz h0 h48 hs => exec_fwStage_first hoff hlen h hd h0 h48 hz hs hm,
      fun x left m hx hpath hnext hleft hm h hd hpos h0 h48 hmax hroom =>
        exec_fwStage_next hoff hlen h hd h0 h48 hx hpath hnext hleft hpos hmax hroom hm,
      fun x => exec_fwCommitTrial, exec_fwCommitFinal, exec_fwRestart, exec_fwRollback⟩,
    fun s cause a h hf ha m base hm hb => ⟨fun hc => ?good, fun hc => ?bad⟩⟩
  case good => subst hm; exact exec_fwVerifyDone_good h hf ha hc hb
  case bad => subst hm; exact exec_fwVerifyDone_bad h hf ha hc

end Sys2Proof.Machine
end

section
/-!
O22. The ATOM and ECC commands (R675, R676, R682 to R684).
-/

namespace Sys2Proof.Machine

open Sys2Proof

/-! ### ATOM -/

theorem exec_appCfg {s : State} {d : Desc} (h : Taken s d false false false) (hv : s.fuse.variant.far = true)
    (hd : descOnly d [(8, 3)] = true) (h0 : descArg d 8 1 ≠ 0) (h4 : descArg d 8 1 < 4) (hp : descArg d 9 1 < 3) (hh : descArg d 10 1 < 2) :
    exec (.appCfg d) s = .next { s.withM (s.ok d 0x0C00 (s.took d)
        (resAt 8 (appCfg s.cfg.appPolicy (descArg d 8 1) (descArg d 9 1) (descArg d 10 1)).toNat)) with
      cfg := { s.cfg with appPolicy := appCfg s.cfg.appPolicy (descArg d 8 1) (descArg d 9 1) (descArg d 10 1) } } := by
  change execAppCfg d s = _
  unfold execAppCfg
  refine settings_next h.1 ((settingsCommand_taken h (by simp [hv])
    (by simp [hd, h0, Nat.not_le.mpr h4, Nat.not_le.mpr hp, Nat.not_le.mpr hh]) rfl rfl rfl).trans ?_)
  simp only [hv, if_true]

theorem exec_appReset {s : State} {d : Desc} (h : Taken s d false false false) (hv : s.fuse.variant.far = true)
    (hd : descOnly d [] = true) :
    exec (.appReset d) s = .next (s.withM (s.ok d 0x0C01
      ((s.took d).setCoh fun c => { c with predictor := [], history := [] }) 0)) := by
  change execAppReset d s = _
  exact run_next h.1 (command_taken h (by simp [State.env, hv]) (by simp [hd]) rfl rfl rfl _)

/-! ### FRISKET_ARM -/

section
variable {s : State} {d : Desc} (h : Taken s d false false false)
include h

theorem exec_frisketArm_channel (hd : descOnly d [(8, 3), (12, 4), (16, 5), (22, 2)] = true) (ht : descArg d 8 1 = 0)
    (hv : descArg d 9 1 < s.fuse.variant.dacs) (hi : descArg d 9 1 < 8) (hm : descArg d 10 1 < 2)
    (hmask : BitVec.ofNat 72 (descArg d 16 5) ≠ 0) (hbeats : descArg d 22 2 ≠ 0) (ha : descArg d 12 4 < 2 ^ 26)
    (hb : channelBlocked s.m (descArg d 9 1) = false) :
    exec (.frisketArm d) s = .next (s.withM (s.ok d 0x0E00 ((s.took d).setDac (descArg d 9 1) { s.m.dac (descArg d 9 1) with
      frisket := ⟨true, descArg d 10 1 == 1, BitVec.ofNat 26 (descArg d 12 4), BitVec.ofNat 72 (descArg d 16 5),
        BitVec.ofNat 16 (descArg d 22 2)⟩ }) 0)) := by
  change execFrisketArm d s = _
  refine (run_next h.1 (command_taken h (by simp [ht, hi, dacPresent, State.env, hv]) ?_ (by simp [hb]) rfl rfl _)).trans ?_
  · simp only [ht, beq_self_eq_true, if_true, hd, beq_eq_false_iff_ne.mpr hmask, beq_eq_false_iff_ne.mpr hbeats,
      decide_eq_false (Nat.not_le.mpr hi), decide_eq_false (Nat.not_le.mpr hm), decide_eq_false (Nat.not_le.mpr ha)]
    rfl
  · simp only [ht, beq_self_eq_true, if_true, took_dac]

theorem exec_frisketArm_log {f : Frisket}
    (hf : f = ⟨true, descArg d 10 1 == 1, BitVec.ofNat 26 (descArg d 12 4), BitVec.ofNat 72 (descArg d 16 9), 0⟩)
    (hd : descOnly d [(8, 3), (12, 4), (16, 9)] = true) (hm : descArg d 10 1 < 2) (hmask : BitVec.ofNat 72 (descArg d 16 9) ≠ 0)
    (ha : descArg d 12 4 < 2 ^ 24) (ht : descArg d 8 1 = 4) (hi : descArg d 9 1 = 0) :
    exec (.frisketArm d) s = .next (s.withM (s.ok d 0x0E00 ((s.took d).setErr fun r => { r with frisket := f }) 0)) := by
  subst hf
  change execFrisketArm d s = _
  refine (run_next h.1 (command_taken h (by simp [ht]) ?_ (by simp [ht]) rfl rfl _)).trans ?_
  · simp only [ht, hi, show ((4 : Nat) == 0) = false from rfl, Bool.false_eq_true, if_false, hd, beq_eq_false_iff_ne.mpr hmask,
      decide_eq_false (Nat.not_le.mpr hm), decide_eq_false (Nat.not_le.mpr ha)]
    rfl
  · simp only [ht]; rfl

theorem exec_frisketArm_slice {f : Frisket}
    (hf : f = ⟨true, descArg d 10 1 == 1, BitVec.ofNat 26 (descArg d 12 4), BitVec.ofNat 72 (descArg d 16 9), 0⟩)
    (hd : descOnly d [(8, 3), (12, 4), (16, 9)] = true) (hm : descArg d 10 1 < 2) (hmask : BitVec.ofNat 72 (descArg d 16 9) ≠ 0)
    (ha : descArg d 12 4 < 2 ^ 24) (h0 : 0 < descArg d 8 1) (h4 : descArg d 8 1 < 4) (hi : descArg d 9 1 < 16) :
    exec (.frisketArm d) s = .next (s.withM (s.ok d 0x0E00 ((s.took d).setSlcFrisket (descArg d 8 1) (descArg d 9 1) f) 0)) := by
  have hda : (descArg d 8 1 == 0) = false := beq_eq_false_iff_ne.mpr (by omega)
  subst hf
  change execFrisketArm d s = _
  refine (run_next h.1 (command_taken h (by simp [hda]) ?_ (by simp [hda]) rfl rfl _)).trans ?_
  · simp only [hda, beq_eq_false_iff_ne.mpr (show descArg d 8 1 ≠ 4 by omega), Bool.false_eq_true, if_false, hd, beq_eq_false_iff_ne.mpr hmask,
      decide_eq_false (show ¬ 5 ≤ descArg d 8 1 by omega), decide_eq_false (Nat.not_le.mpr hi), decide_eq_false (Nat.not_le.mpr hm),
      decide_eq_false (Nat.not_le.mpr ha)]
    simp
  · simp only [hda, if_neg (show descArg d 8 1 ≠ 4 by omega)]; rfl

end

/-! ### PINMARK_SET and PINMARK_CLEAR -/

section
variable {s : State} {d : Desc} {n : Nat} {mask : BitVec 40} (h : Taken s d false false false) (hn : descArg d 8 1 = n)
  (hmask : descArg d 12 5 = mask.toNat) (hv : n < s.fuse.variant.dacs) (h8 : n < 8) (h0 : mask ≠ 0)
  (hd : descOnly d [(8, 1), (12, 5)] = true) (hb : channelBlocked s.m n = false)
include h hn hmask hv h8 h0 hd hb

theorem pinmark_taken {opcode : Nat} {limit : Bool} {f : BitVec 40 → BitVec 40 → BitVec 40} {work : M → Nat → BitVec 40 → M}
    (hl : limit = true → popCount (f (s.m.dac n).marks mask) ≤ 6) :
    pinmark s.env s.m d opcode limit f work
      = s.ok d opcode (work (s.took d) n mask) (resAt 8 ((work (s.took d) n mask).dac n).marks.toNat) := by
  have hw : BitVec.ofNat 40 (descArg d 12 5) = mask := by rw [hmask, BitVec.ofNat_toNat, BitVec.setWidth_eq]
  have hfew : (limit && decide (6 < popCount (f (s.m.dac n).marks mask))) = false := by
    cases limit <;> simp_all
  unfold pinmark
  simp only [hn, hw]
  exact command_taken h (by simp [h8, dacPresent, State.env, hv]) (by simp only [hd, decide_eq_false (Nat.not_le.mpr h8), beq_eq_false_iff_ne.mpr h0]; rfl) (by simp [hb, hfew]) rfl rfl _

theorem exec_pinmarkSet (hfew : popCount ((s.m.dac n).marks ||| mask) ≤ 6) {m : M}
    (hm : m = (List.range 40).foldl (fun m k => if mask.getLsbD k then markPin s.env m n k 3 else m) (s.took d)) :
    exec (.pinmarkSet d) s = .next (s.withM (s.ok d 0x0E01 m (resAt 8 (m.dac n).marks.toNat))) := by
  subst hm
  change execPinmarkSet d s = _
  exact run_next h.1 (pinmark_taken (f := (· ||| ·)) h hn hmask hv h8 h0 hd hb fun _ => hfew)

theorem exec_pinmarkClear {m : M} (hm : m = (s.took d).setDac n { s.m.dac n with
      marks := (s.m.dac n).marks &&& ~~~mask
      markCause := (List.range 40).foldl (fun t k => if mask.getLsbD k then Tab.put (fun _ => 0) t k 0 else t) (s.m.dac n).markCause }) :
    exec (.pinmarkClear d) s = .next (s.withM (s.ok d 0x0E02 m (resAt 8 (m.dac n).marks.toNat))) := by
  subst hm
  change execPinmarkClear d s = _
  refine (run_next h.1 (pinmark_taken h hn hmask hv h8 h0 hd hb (fun hl => absurd hl Bool.false_ne_true))).trans ?_
  simp only [took_dac]

end

/-- Settles O22. -/
theorem atomAndEcc : Obligations.AtomAndEcc :=
  ⟨fun _ _ h hv => ⟨exec_appCfg h hv, exec_appReset h hv⟩,
    fun _ _ h => ⟨exec_frisketArm_channel h,
      fun _ hf hd hm hmask ha => ⟨exec_frisketArm_log h hf hd hm hmask ha, exec_frisketArm_slice h hf hd hm hmask ha⟩,
      fun _ _ hn hmask hv h8 h0 hd hb => ⟨fun _ hm hfew => exec_pinmarkSet h hn hmask hv h8 h0 hd hb hfew hm,
        fun _ => exec_pinmarkClear h hn hmask hv h8 h0 hd hb⟩⟩⟩

end Sys2Proof.Machine
end

section
/-!
O23. The PORT commands (R677 to R681, R441).
-/

namespace Sys2Proof.Machine

open Sys2Proof

theorem exec_portRecover {s : State} {d : Desc} {p : HPort} {w : Nat} (hp : portArg d = some p) (hw : (s.m.port p).window = some w)
    (hin : s.m.now ≤ w + 50000) (hi : (s.m.port p).interval = none) (hf : linkFenced s.env s.m p.lnk = false)
    (h : Taken s d false false false) (hd : descOnly d [(8, 1), (10, 2)] = true) (h0 : descArg d 10 2 ≠ 0) (hmax : descArg d 10 2 ≤ 100)
    (hroom : s.m.jpc.accepted.length < 16) {m : M} (hm : m = s.accepted d 0x0D00 0 0 0 0) :
    exec (.portRecover d) s = .next (s.after (recoverCheck s.env (m.setPort p { m.port p with
      window := none, interval := some (m.now, descArg d 10 2 * 50000, (heldLines m p).length, s.jobId) }) p)) := by
  subst hm
  change execPortRecover d s = _
  refine (act_next h.1 (commandLater_taken h rfl (by simp [hp, hd, h0, Nat.not_lt.mpr hmax]) (by simp [hp, hw, hin, hi, hf]) rfl rfl
    hroom ..)).trans ?_
  simp only [hp, Option.getD_some]

section
variable {s : State} {d : Desc} {l : Lnk} (hl : Lnk.ofField (descArg d 9 1) = some l) (hckl : l = .ckl → s.fuse.variant.ckl = true)
  (h : Taken s d false false false) (hd : descOnly d [(8, 2)] = true) (hk : descArg d 8 1 = 0)
include hl hckl h hd hk

theorem exec_portFenceLink :
    exec (.portFenceLink d) s = .next (s.after (s.ok d 0x0D01 (fenceAny s.env (s.took d) l) 0)) := by
  change execPortFenceLink d s = _
  refine (act_next h.1 (command_taken h (by rw [hl]; exact linkAbsent_eq_false hckl) (by simp [hl, hd, hk]) rfl rfl rfl _)).trans ?_
  simp only [hl, Option.getD_some]

theorem exec_portUnfenceLink :
    exec (.portUnfenceLink d) s = .next (s.after (s.ok d 0x0D02 (unfenceLink s.env (s.took d) l) 0)) := by
  change execPortUnfenceLink d s = _
  refine (act_next h.1 (command_taken h (by rw [hl]; exact linkAbsent_eq_false hckl) (by simp [hl, hd, hk]) rfl rfl rfl _)).trans ?_
  simp only [hl, Option.getD_some]

end

section
variable {s : State} {d : Desc} {a : Agent} (ha : descArg d 10 1 = a.toNat) (h : Taken s d false false false)
  (hd : descOnly d [(8, 1), (10, 1)] = true) (hk : descArg d 8 1 = 1)
include ha h hd hk

theorem exec_portFenceAgent :
    exec (.portFenceAgent d) s = .next (s.after (s.ok d 0x0D01 (fenceAgent s.env (s.took d) a true) 0)) := by
  have hagent : BitVec.ofNat 6 (descArg d 10 1) = a := by rw [ha, BitVec.ofNat_toNat, BitVec.setWidth_eq]
  have hlt : descArg d 10 1 < 64 := ha ▸ a.isLt
  change execPortFenceAgent d s = _
  refine (act_next h.1 (command_taken h rfl (by simp [hd, hk, hlt]) rfl rfl rfl _)).trans ?_
  simp only [hagent]

theorem exec_portUnfenceAgent (hf : linkFenced s.env s.m (agentPort a).lnk = false) :
    exec (.portUnfenceAgent d) s = .next (s.after (s.ok d 0x0D02
      (wr s.env (s.took d) (fenceReg a) (rd s.env s.m (fenceReg a) &&& ~~~((1 : Word) <<< (a.toNat % 32)))) 0)) := by
  have hagent : BitVec.ofNat 6 (descArg d 10 1) = a := by rw [ha, BitVec.ofNat_toNat, BitVec.setWidth_eq]
  rw [exec_portUnfenceAgent_live h.1, command_taken (c := unfenceAgentCmd s d) h rfl (unfenceAgentCmd_badArg hd hk ha)
    (by simp [unfenceAgentCmd, hagent, hf]) rfl rfl]
  simp only [unfenceAgent, hagent, took_rd]
  rfl

end

theorem exec_agentMap {s : State} {d : Desc} {p : HPort} (hp : portArg d = some p) (h : Taken s d false false false)
    (hd : descOnly d [(8, 2), (12, 4)] = true) (hq : descArg d 9 1 < 2) :
    exec (.agentMap d) s = .next (s.withM (s.ok d 0x0D03
      (if descArg d 9 1 = 1 then s.took d
       else (s.took d).setPort p { s.m.port p with agentMap := BitVec.ofNat 32 (descArg d 12 4) })
      (resAt 8 (s.m.port p).agentMap.toNat))) := by
  change execAgentMap d s = _
  refine (run_next h.1 (command_taken h rfl (by simp [hp, hd, Nat.not_le.mpr hq]) rfl rfl rfl _)).trans ?_
  simp only [hp, Option.getD_some, took_port]

/-- Settles O23. -/
theorem portCommands : Obligations.PortCommands := fun s d =>
  ⟨fun _ _ hp hw hin hi hf h hd h0 hmax hroom _ => exec_portRecover hp hw hin hi hf h hd h0 hmax hroom,
    fun _ hl hckl h hd hk => ⟨exec_portFenceLink hl hckl h hd hk, exec_portUnfenceLink hl hckl h hd hk⟩,
    fun _ ha h hd hk => ⟨exec_portFenceAgent ha h hd hk, exec_portUnfenceAgent ha h hd hk⟩,
    fun _ hp h hd => ⟨fun hq => by rw [exec_agentMap hp h hd (by omega), if_pos hq],
      fun hq => by rw [exec_agentMap hp h hd (by omega), if_neg (by omega)]⟩⟩

end Sys2Proof.Machine
end

section
/-!
O24. An admitted request that its port does not hold back (R273, R293, R408, R426): a write enters its agent's epoch, what the port holds
of the line is flushed ahead of it, and it goes to its slice.
-/

namespace Sys2Proof.Machine

open Sys2Proof

/-! ### At the port -/

/-- What a request command does with an admitted request that is no configuration access and no BARRIER_C. -/
theorem writeRequest_admitted {s : State} {h : ReqHdr} {op : Op} {mask : Mask} {data : Data} {n : Nat} (hl : Live s)
    (ha : Admitted s h op mask) (hn : (s.req h op mask 0).slots = n) (hc : op.cfg = false) (hb : op ≠ .barrier)
    (hp : primaryFor s.m h.line = true) :
    writeRequest s h op n mask data = .next (s.after
      (if s.m.holding && !op.isEvict then (s.recorded h op mask data n).setPort h.port { (s.recorded h op mask data n).port h.port with
          hold := ((s.recorded h op mask data n).port h.port).hold ++ [s.req h op mask data] }
       else letIn s.env (s.recorded h op mask data n) (s.req h op mask data) false)) := by
  have hbuf : Buffered s h.port.lnk 0 n := hn ▸ ha.1.1
  exact act_next hl ((delivered_of_buffered hbuf ..).trans (request_in s h op mask data n _ ha hc hb hp))

/-- A request whose agent's hold queue is empty enters its epoch and goes on. -/
theorem letIn_passes {s : State} {h : ReqHdr} {op : Op} {mask : Mask} {data : Data} {n : Nat} {m : M} {r : Req}
    (hh : ((s.m.port h.port).epochsOf h.agent).hold = []) (hc : op.cfg = false) (hb : op ≠ .barrier)
    (he : (m, r) = enterEpoch (s.recorded h op mask data n) (s.req h op mask data)) :
    letIn s.env (s.recorded h op mask data n) (s.req h op mask data) false
      = if op = .wrNt then takeNt s.env m r else arrive s.env (flushAhead s.env m h.port h.line) r := by
  have hop : (s.req h op mask data).op = op := rfl
  have hhold : (((s.recorded h op mask data n).port (s.req h op mask data).port).epochsOf (s.req h op mask data).agent).hold = [] :=
    (congrArg Epochs.hold (recorded_epochsOf s h op mask data n h.agent)).trans hh
  obtain ⟨hrop, hrport, hrline⟩ : r.op = op ∧ r.port = h.port ∧ r.line = h.line := by
    rw [show r = (enterEpoch (s.recorded h op mask data n) (s.req h op mask data)).2 from (congrArg Prod.snd he :)]
    unfold enterEpoch
    split <;> exact ⟨rfl, rfl, rfl⟩
  simp only [letIn, hhold, hop, hc, ← he, hrop, hrport, hrline, beq_iff_eq, List.isEmpty_nil, Bool.not_true, Bool.and_false,
    beq_eq_false_iff_ne.mpr hb, Bool.false_and, Bool.or_self, Bool.false_eq_true, if_false]

/-- What a request command does with an admitted request that passes its port. -/
theorem writeRequest_passes {s : State} {h : ReqHdr} {op : Op} {mask : Mask} {data : Data} {n : Nat} {m : M} {r : Req} (hl : Live s)
    (ha : Admitted s h op mask) (hn : (s.req h op mask 0).slots = n) (hc : op.cfg = false) (hb : op ≠ .barrier)
    (hpass : Passes s h op) (hp : primaryFor s.m h.line = true)
    (he : (m, r) = enterEpoch (s.recorded h op mask data n) (s.req h op mask data)) :
    writeRequest s h op n mask data = .next (s.after
      (if op = .wrNt then takeNt s.env m r else arrive s.env (flushAhead s.env m h.port h.line) r)) := by
  obtain ⟨hquiesce, hhold⟩ := hpass
  have hgo : (s.m.holding && !op.isEvict) = false := by rcases hquiesce with hq | hq <;> simp [hq]
  rw [writeRequest_admitted hl ha hn hc hb hp, hgo, letIn_passes hhold hc hb he]
  rfl

/-- Settles O24. -/
theorem requestsGoToTheirSlice : Obligations.RequestsGoToTheirSlice := by
  intro s h op c mask data slots a b m r hmem hl ha hpass hp he
  have hexec : exec c s = writeRequest s h op slots mask data ∧ (s.req h op mask 0).slots = slots ∧ op.cfg = false ∧ op ≠ .barrier
      ∧ op ≠ .wrNt := by
    simp only [List.mem_cons, Prod.mk.injEq, List.not_mem_nil, or_false] at hmem
    rcases hmem with ⟨rfl, rfl, hm, hd, hs⟩ | ⟨rfl, rfl, hm, hd, hs⟩ | ⟨rfl, rfl, hm, hd, hs⟩ | ⟨rfl, rfl, hm, hd, hs⟩
      | ⟨rfl, rfl, hm, hd, hs⟩ | ⟨rfl, rfl, hm, hd, hs⟩ | ⟨rfl, rfl, hm, hd, hs⟩ | ⟨rfl, rfl, hm, hd, hs⟩ | ⟨rfl, rfl, hm, hd, hs⟩
      | ⟨rfl, rfl, hm, hd, hs⟩ | ⟨rfl, rfl, hm, hd, hs⟩ | ⟨rfl, rfl, hm, hd, hs⟩ | ⟨rfl, rfl, hm, hd, hs⟩ <;>
      (simp only [hm, hd, hs]; exact ⟨rfl, rfl, rfl, nofun, nofun⟩)
  obtain ⟨hrow, hslots, hcfg, hbarrier, hnt⟩ := hexec
  rw [hrow, writeRequest_passes hl ha hslots hcfg hbarrier hpass hp he, if_neg hnt]

end Sys2Proof.Machine
end

section
/-!
O25. A WR_NT that its port does not hold back (R293 to R298) also ends the reservation and the guard that its agent holds on the line (Table
5.6, R260), which the statement leaves out.
-/

namespace Sys2Proof.Machine

open Sys2Proof

theorem exec_wrNt {s : State} {h : ReqHdr} {mask : Mask} {data : Data} {m : M} {r : Req} (hl : Live s) (ha : Admitted s h .wrNt mask)
    (hpass : Passes s h .wrNt) (hp : primaryFor s.m h.line = true)
    (he : (m, r) = enterEpoch (s.recorded h .wrNt mask data (1 + popCount h.slotMap)) (s.req h .wrNt mask data)) :
    exec (.wrNt h mask data) s = .next (s.after (takeNt s.env m r)) := by
  change writeRequest s h .wrNt (1 + popCount h.slotMap) mask data = _
  have hslots : (s.req h .wrNt mask 0).slots = 1 + popCount h.slotMap := rfl
  rw [writeRequest_passes hl ha hslots rfl nofun hpass hp he, if_pos rfl]

/-- A running device in no mode that holds requests back, HPA ACTIVE, where agent 1 holds a reservation of line 0x1000. -/
def reservedLine : State :=
  { State.reset with m := { State.reset.m with
    pins := { Pins.reset with coldRstN := true }
    mode := { State.reset.m.mode with active := 0x61 }
    links := [(Lnk.hpa.n, { LinkSt.reset with st := .active, rxFree := advertised .hpa })]
    coh := { State.reset.m.coh with
      rsv := [(0, { agent := 1, line := 0x1000, armed := true, tick := 0, guarded := false, sent := none })] } } }
/-- A WR_NT of that agent into that line. -/
def reservedWrite : ReqHdr := { port := .hpa, tag := 5, agent := 1, line := 0x1000, opf := 1 }
/-- The device once the WR_NT is recorded and has entered its agent's epoch. -/
def reservedWriteRecorded : M × Req :=
  enterEpoch (reservedLine.recorded reservedWrite .wrNt 0xFFFF 0 2) (reservedLine.req reservedWrite .wrNt 0xFFFF 0)

theorem reservedLine_live : Live reservedLine := ⟨by decide, by decide⟩
theorem reservedWrite_admitted : Admitted reservedLine reservedWrite .wrNt 0xFFFF :=
  ⟨⟨⟨by decide, .inr (by decide)⟩, by decide, by decide, by decide⟩, by decide, by decide, by decide, by decide, by decide, by decide⟩
theorem reservedWrite_passes : Passes reservedLine reservedWrite .wrNt := ⟨.inl (by decide), by decide⟩
theorem reservedWrite_primary : primaryFor reservedLine.m reservedWrite.line = true := by decide
theorem reservedWrite_entered : (reservedWriteRecorded.1, reservedWriteRecorded.2)
    = enterEpoch (reservedLine.recorded reservedWrite .wrNt 0xFFFF 0 (1 + popCount reservedWrite.slotMap))
        (reservedLine.req reservedWrite .wrNt 0xFFFF 0) := rfl

theorem reservedWrite_ends_reservation :
    ((reservedLine.after (takeNt reservedLine.env reservedWriteRecorded.1 reservedWriteRecorded.2)).m.slot 0 0).armed = false := by
  decide +kernel
theorem reservedWrite_openStick_keeps_reservation :
    ((reservedLine.after (openStick reservedLine.env reservedWriteRecorded.1 reservedWriteRecorded.2)).m.slot 0 0).armed = true := by
  decide +kernel

/-- Refutes O25: in `reservedLine` the WR_NT ends its agent's reservation of the line, as any request but CND_ST does (Table 5.6, R260);
the state that the statement gives keeps that reservation. -/
theorem not_sticksBarriersQuiesce : ¬ Obligations.SticksBarriersQuiesce := by
  intro h
  obtain ⟨hwrites, -⟩ := h
  obtain ⟨hnt, -⟩ := hwrites reservedLine reservedWrite 0xFFFF 0 reservedLine_live
  obtain ⟨hopen, -⟩ := hnt _ _ reservedWrite_admitted reservedWrite_passes reservedWrite_primary reservedWrite_entered
  have heq := hopen (by decide)
  rw [exec_wrNt reservedLine_live reservedWrite_admitted reservedWrite_passes reservedWrite_primary reservedWrite_entered] at heq
  have harmed := congrArg (fun s : State => (s.m.slot 0 0).armed) (Host.Outcome.next.inj heq)
  exact absurd (reservedWrite_ends_reservation.symm.trans (harmed.trans reservedWrite_openStick_keeps_reservation)) nofun

end Sys2Proof.Machine
end

section
/-!
O27. CFG_RD and CFG_WR (R387 to R391). As for O56 and O57, each command also serves what hold queues have released and so rewrites the table
of the ports: the statement holds where that table is in canonical form, and fails where an entry spells out its default.
-/

namespace Sys2Proof.Machine

open Sys2Proof

section
variable {s : State} {h : ReqHdr} (hl : Live s) (hn : NoneReady s) (hw : Tab.wf (fun _ => PortSt.reset) s.m.ports = true)
  (hmap : (s.m.port h.port).agentMap.getLsbD (h.agent.toNat % 32) = true) (hx : h.cfgAddr.extractLsb' 0 2 = 0)
  (hold : ((s.m.port h.port).epochsOf h.agent).hold = [])
include hl hn hw hmap hx hold

/-- What CFG_RD leaves over every state whose table of the ports is in canonical form. -/
theorem exec_cfgRd_of_canonical (hf : Formed s h .cfgRd 0) (hr : hdrReserved h .cfgRd = false) :
    exec (.cfgRd h) s = .next (s.applied (fin s.env (serveRead s.env h.cfgAddr (s.recorded h .cfgRd 0 0 0) (s.req h .cfgRd 0 0)))) := by
  have hbuf : Buffered s h.port.lnk 0 0 := req_slots_of_cfg s h (op := .cfgRd) rfl 0 0 ▸ hf.1
  rw [exec_cfgRd_live hl, serveReady_of_canonical hn hw, delivered_of_buffered hbuf, request_aligned rfl hf hold hmap hr hx]

/-- What CFG_WR leaves over every state whose table of the ports is in canonical form. -/
theorem exec_cfgWr_of_canonical (hf : Formed s h .cfgWr 0) (hr : hdrReserved h .cfgWr = false) :
    exec (.cfgWr h) s = .next (s.applied (fin s.env
      (serveWrite s.env h.cfgAddr h.cfgData (s.recorded h .cfgWr 0 0 0) (s.req h .cfgWr 0 0)))) := by
  have hbuf : Buffered s h.port.lnk 0 0 := req_slots_of_cfg s h (op := .cfgWr) rfl 0 0 ▸ hf.1
  rw [exec_cfgWr_live hl, serveReady_of_canonical hn hw, delivered_of_buffered hbuf, request_aligned rfl hf hold hmap hr hx]

end

/-- Refutes O27: the statement ranges over states whose table of the ports lists an entry at its default. A CFG_WR of the mirror window in
`spelledOutPort` drops that entry, and the state that the statement gives keeps it. `exec_cfgRd_of_canonical` and
`exec_cfgWr_of_canonical` say what the commands do elsewhere. -/
theorem not_configurationRequests : ¬ Obligations.ConfigurationRequests := by
  intro h
  obtain ⟨-, hwrite⟩ := h spelledOutPort mirrorWrite mirrorWriteRecorded (returning mirrorWriteRecorded 0) .done spelledOutPort_live
    (by decide) (by decide) (by decide) spelledOutPort_noneReady
  obtain ⟨-, -, hdone⟩ := hwrite mirrorWrite_formed (by decide) rfl (access_mirror_write _ mirrorWrite_target mirrorWrite_allowed).symm
  have heq := hdone rfl
  rw [exec_cfgWr_live spelledOutPort_live] at heq
  have hports := congrArg (fun s : State => s.m.ports) (Host.Outcome.next.inj heq)
  simp only [applied_ports, spelledOutPort_mirrorWrite_ports, spelledOutPort_cmp_ports] at hports
  exact absurd hports (by decide)

end Sys2Proof.Machine
end

section
/-!
O28 and O29. Answers to snoops, GRANT_ACK and relayed beacons (R194, R197, R213, R401), and the answers of the memory controllers (R280,
R281, R396, R397). Taking the buffers of a message touches its link alone, so what an answer is checked for is read as it was before.
-/

namespace Sys2Proof.Machine

open Sys2Proof

/-! ### What taking the buffers of a message leaves -/

section
variable (s : State) (l : Lnk) (c n : Nat)

@[simp] theorem received_linkFenced (k : Lnk) : linkFenced s.env (s.received l c n) k = linkFenced s.env s.m k := rfl
@[simp] theorem received_agentFenced (a : Agent) : agentFenced s.env (s.received l c n) a = agentFenced s.env s.m a := rfl
@[simp] theorem received_findSnp (p : HPort) (tag : Tag) : findSnp (s.received l c n) p tag = findSnp s.m p tag := rfl
@[simp] theorem received_sliceDead (x : Nat) : sliceDead (s.received l c n) x = sliceDead s.m x := rfl
@[simp] theorem received_port (p : HPort) : (s.received l c n).port p = s.m.port p := rfl
@[simp] theorem received_coh : (s.received l c n).coh = s.m.coh := rfl
@[simp] theorem received_memFind (p : MPort) (tag : Tag) : memFind (s.received l c n) p tag = memFind s.m p tag := rfl

end

/-- A message whose buffers are at hand leaves what its handler makes of the machine with those buffers taken. -/
theorem delivered_next {s : State} {l : Lnk} {c n : Nat} {f : Env → M → M} {m : M} (h : Live s) (hb : Buffered s l c n)
    (hf : f s.env (s.received l c n) = m) : act s (fun e m => delivered e m l c n (f e)) = .next (s.after m) :=
  act_next h ((delivered_of_buffered hb ..).trans hf)

/-! ### Answers to snoops -/

/-- What O28 asks of an answer: neither its link nor its agent is fenced, and it names an open snoop of its agent on a slice that works. -/
structure AnswersSnoop (s : State) (r : SnpRsp) (t : Txn) (y : Snp) : Prop where
  linkOpen : linkFenced s.env s.m r.port.lnk = false
  agentOpen : agentFenced s.env s.m r.agent = false
  found : findSnp s.m r.port r.tag = some (t, y)
  alive : sliceDead s.m (sliceOf t.req.line) = false
  free : y.held = false
  noEvp : y.evp = none
  own : y.bcast = true ∨ y.agent = r.agent

theorem AnswersSnoop.named {s : State} {r : SnpRsp} {t : Txn} {y : Snp} (h : AnswersSnoop s r t y) :
    (y.held || y.evp.isSome || (!y.bcast && y.agent != r.agent)) = false := by
  rcases h.own with hb | ha
  · simp [h.free, h.noEvp, hb]
  · simp [h.free, h.noEvp, ha]

section
variable {s : State} {r : SnpRsp} {t : Txn} {y : Snp} {n : Nat} (h : AnswersSnoop s r t y) (hact : (s.m.link r.port.lnk).st = .active)
include h hact

theorem snoopAnswer_judged {ans : Ans} (data : Data) (he : ans ≠ .evp) :
    snoopAnswer s.env (s.received r.port.lnk 1 n) r ans data = answered s.env (s.received r.port.lnk 1 n) t y r ans data := by
  have hnamed := h.named
  simp only [snoopAnswer, received_link_st, hact, received_linkFenced, h.linkOpen, received_agentFenced, h.agentOpen, received_findSnp,
    h.found, received_sliceDead, h.alive, hnamed, bne_self_eq_false, Bool.or_self, Bool.false_eq_true, if_false]

theorem snoopAnswer_evp (hev : y.evicted.contains r.agent = false) :
    snoopAnswer s.env (s.received r.port.lnk 1 n) r .evp 0 = (s.received r.port.lnk 1 n).updTxn t.req.line fun t => { t with
      snoops := t.snoops.map fun z => if z.port == y.port && z.tag == y.tag then
        { z with evp := some r.agent, several := r.several } else z } := by
  have hnamed := h.named
  simp only [snoopAnswer, received_link_st, hact, received_linkFenced, h.linkOpen, received_agentFenced, h.agentOpen, received_findSnp,
    h.found, received_sliceDead, h.alive, hnamed, hev, bne_self_eq_false, Bool.or_self, Bool.false_eq_true, if_false]

end

theorem snoopAnswer_stray {s : State} {r : SnpRsp} {n : Nat} {ans : Ans} (hact : (s.m.link r.port.lnk).st = .active)
    (hl : linkFenced s.env s.m r.port.lnk = false) (ha : agentFenced s.env s.m r.agent = false) (hf : findSnp s.m r.port r.tag = none)
    (data : Data) :
    snoopAnswer s.env (s.received r.port.lnk 1 n) r ans data
      = violate s.env (s.received r.port.lnk 1 n) r.port.lnk 0x14 (some r.agent) r.tag ans.code true true := by
  simp only [snoopAnswer, received_link_st, hact, received_linkFenced, hl, received_agentFenced, ha, received_findSnp, hf,
    bne_self_eq_false, Bool.or_self, Bool.false_eq_true, if_false]

/-- The part of O28 about answers to snoops. -/
theorem exec_snoopAnswers {s : State} {r : SnpRsp} {t : Txn} {y : Snp} (h : Live s) (ha : AnswersSnoop s r t y) (data : Data) {m : M} :
    (Buffered s r.port.lnk 1 0 → m = s.received r.port.lnk 1 0 →
      exec (.snpRspI r) s = .next (s.after (answered s.env m t y r .i 0))
      ∧ exec (.snpRspS r) s = .next (s.after (answered s.env m t y r .s 0))
      ∧ (y.evicted.contains r.agent = false → exec (.snpRspEvp r) s = .next (s.after (m.updTxn t.req.line fun t => { t with
        snoops := t.snoops.map fun z => if z.port == y.port && z.tag == y.tag then
          { z with evp := some r.agent, several := r.several } else z }))))
    ∧ (Buffered s r.port.lnk 1 8 → m = s.received r.port.lnk 1 8 →
      exec (.snpRspID r data) s = .next (s.after (answered s.env m t y r .id data))
      ∧ exec (.snpRspSD r data) s = .next (s.after (answered s.env m t y r .sd data))) := by
  refine ⟨fun hb hm => ?_, fun hb hm => ?_⟩ <;> subst hm
  · refine ⟨?_, ?_, fun hev => ?_⟩
    · change execSnpRspI r s = _; exact delivered_next h hb (snoopAnswer_judged ha hb.1 0 (by decide))
    · change execSnpRspS r s = _; exact delivered_next h hb (snoopAnswer_judged ha hb.1 0 (by decide))
    · change execSnpRspEvp r s = _; exact delivered_next h hb (snoopAnswer_evp ha hb.1 hev)
  · refine ⟨?_, ?_⟩
    · change execSnpRspID r data s = _; exact delivered_next h hb (snoopAnswer_judged ha hb.1 data (by decide))
    · change execSnpRspSD r data s = _; exact delivered_next h hb (snoopAnswer_judged ha hb.1 data (by decide))

/-! ### GRANT_ACK and PEER_BEACON -/

theorem exec_grantAck {s : State} {p : HPort} {tag : Tag} {t : Txn} {m : M} (h : Live s) (hb : Buffered s p.lnk 2 0)
    (hm : m = s.received p.lnk 2 0) (hv : (s.m.port p).voided.contains tag = false)
    (hk : (s.m.port p).ackAfterEvict.contains tag = false)
    (ht : s.m.coh.txns.find? (fun t => t.phase == .granted && t.req.port == p && t.req.tag == tag && !t.dropped) = some t)
    (hd : sliceDead s.m (sliceOf t.req.line) = false) (hl : linkFenced s.env s.m p.lnk = false)
    (ha : agentFenced s.env s.m t.req.agent = false) :
    exec (.grantAck p tag) s = .next (s.after (closeTxn s.env (freeHostTag m p tag) t.req.line)) := by
  subst hm
  change execGrantAck p tag s = _
  refine delivered_next h hb ?_
  simp only [grantAck, received_link_st, hb.1, received_port, hv, hk, received_coh, ht, received_sliceDead, hd, received_linkFenced, hl,
    received_agentFenced, ha, bne_self_eq_false, Bool.or_self, Bool.false_eq_true, if_false]

theorem exec_grantAck_late {s : State} {p : HPort} {tag : Tag} {m : M} (h : Live s) (hb : Buffered s p.lnk 2 0)
    (hv : (s.m.port p).voided.contains tag = true) (hm : m = s.received p.lnk 2 0) :
    exec (.grantAck p tag) s = .next (s.after (violate s.env (freeHostTag m p tag) p.lnk 0x17
      (((s.m.port p).outstanding.find? fun x => x.1 == tag).map fun x => x.2.1) tag 0x38 false true)) := by
  subst hm
  change execGrantAck p tag s = _
  refine delivered_next h hb ?_
  simp only [grantAck, received_link_st, hb.1, received_port, hv, bne_self_eq_false, Bool.false_eq_true, if_false, if_true]

theorem exec_peerBeaconRx {s : State} {p : HPort} (h : Live s) (hb : Buffered s p.lnk 2 1) (b : Beacon) :
    exec (.peerBeaconRx p b) s = .next (s.after (beaconIn s.env (s.received p.lnk 2 1) p b)) := by
  change execPeerBeaconRx p b s = _
  exact act_next h (by simp only [hb.1, bne_self_eq_false, Bool.false_eq_true, if_false]; exact delivered_of_buffered hb ..)

/-- Settles O28. -/
theorem snoopAnswersAndAcks : Obligations.SnoopAnswersAndAcks := by
  refine ⟨fun s r data m h hl ha => ⟨fun t y hf hd hy he ho => exec_snoopAnswers h ⟨hl, ha, hf, hd, hy, he, ho⟩ data, fun hf hb => ?stray⟩,
    fun s p tag b h => ⟨fun t m hb hm => exec_grantAck h hb hm, fun hb hv m hm => exec_grantAck_late h hb hv hm,
      fun hb => exec_peerBeaconRx h hb b⟩⟩
  case stray => change execSnpRspI r s = _; exact delivered_next h hb (snoopAnswer_stray hb.1 hl ha hf 0)

/-! ### The answers of a memory controller -/

section
variable {s : State} {p : MPort} {tag : Tag} {r : MemReq} (h : Live s) (hr : memFind s.m p tag = some r)
  (hd : sliceDead s.m (sliceOf r.line) = false)

include hr hd in
theorem memAnswer_named {n opcode : Nat} (hact : (s.m.link p.lnk).st = .active) (f : MemReq → M) :
    memAnswer s.env (s.received p.lnk 2 n) p tag opcode f = f r := by
  simp only [memAnswer, received_link_st, hact, received_memFind, hr, received_sliceDead, hd, bne_self_eq_false, Bool.false_eq_true,
    if_false]

include h hr hd

theorem exec_memDataRx {m : M} (hb : Buffered s p.lnk 2 8) (hm : m = s.received p.lnk 2 8) (hw : r.write = false) (poison : Bool)
    (data : Data) :
    exec (.memDataRx p tag 8 poison data) s = .next (s.after (memReadDone s.env (memTake s.env m p r) r data poison true)) := by
  subst hm
  change execMemDataRx p tag 8 poison data s = _
  refine delivered_next h hb ?_
  rw [memAnswer_named hr hd hb.1]
  simp only [hw, ne_eq, not_true_eq_false, Bool.false_eq_true, if_false]
  rfl

theorem exec_memCmpRx {m : M} (hb : Buffered s p.lnk 2 0) (hm : m = s.received p.lnk 2 0) :
    exec (.memCmpRx p tag) s = .next (s.after (if r.write then memAck s.env (memTake s.env m p r) r
      else violate s.env (memErr s.env m p r 0x100) p.lnk 0x16 none tag 0x35 true true)) := by
  subst hm
  change execMemCmpRx p tag s = _
  refine delivered_next h hb ?_
  rw [memAnswer_named hr hd hb.1]
  cases hw : r.write <;> rfl

theorem exec_memErrRx {m : M} (hb : Buffered s p.lnk 2 0) (hm : m = s.received p.lnk 2 0) (code : BitVec 8) :
    exec (.memErrRx p tag code) s = .next (s.after (memErr s.env m p r code.toNat)) := by
  subst hm
  change execMemErrRx p tag code s = _
  refine delivered_next h hb ?_
  rw [memAnswer_named hr hd hb.1]

end

theorem exec_memCmpRx_stray {s : State} {p : MPort} {tag : Tag} (h : Live s) (hr : memFind s.m p tag = none) (hb : Buffered s p.lnk 2 0) :
    exec (.memCmpRx p tag) s = .next (s.after (violate s.env (s.received p.lnk 2 0) p.lnk 0x14 none tag 0x35 true true)) := by
  change execMemCmpRx p tag s = _
  refine delivered_next h hb ?_
  simp only [memAnswer, received_link_st, hb.1, received_memFind, hr, bne_self_eq_false, Bool.false_eq_true, if_false]

/-- Settles O29. -/
theorem memoryAnswers : Obligations.MemoryAnswers := by
  refine fun s p tag poison data code h => ⟨fun r hr hd => ⟨fun m hb hm hw => exec_memDataRx h hr hd hb hm hw poison data,
    fun m hb hm => ⟨fun hw => ?cmp, fun hw => ?wrong, exec_memErrRx h hr hd hb hm code⟩⟩, exec_memCmpRx_stray h⟩
  case cmp => rw [exec_memCmpRx h hr hd hb hm, if_pos hw]
  case wrong => rw [exec_memCmpRx h hr hd hb hm, if_neg (by simp [hw])]

end Sys2Proof.Machine
end

section
/-!
O30. The INIT flit of a partner of the wrong role (R346) is counted as every valid flit is (R357) before the link goes DOWN, and DOWN keeps
that count; the statement gives the count as it was.
-/

namespace Sys2Proof.Machine

open Sys2Proof

/-- A flit once its window has counted it as valid. -/
def flitCounted (m : M) (l : Lnk) : M :=
  m.setLink l { m.link l with winBad := windowAfter (m.link l) false, rxFlits := (m.link l).rxFlits + 1 }

theorem exec_initFlitRx_wrongRole {s : State} {l : Lnk} {f : BitVec 576} (h : Live s) (hst : (s.m.link l).st = .initCredit)
    (hv : flitValid f false = true) (ht : flitType f = 4) (hr : flitResync f = false) (hrole : flitRole f ≠ partnerRole l) :
    exec (.initFlitRx l f false) s = .next (s.after
      (linkDown s.env (violate s.env (flitCounted s.m l) l 0x06 none 0 0 false true) l 0xB)) := by
  change execInitFlitRx l f false s = _
  refine act_next h ?_
  simp only [flitRx, hst, hv, ht, initFlit, hr, hrole, flitCounted, ne_eq, not_false_eq_true, Bool.not_true, Bool.false_eq_true,
    if_false, if_true]

/-! ### The fields of a flit that is sent -/

theorem Flit.bits_body (f : Flit) : f.bits.setWidth 544 = f.control ++ f.slots :=
  (BitVec.setWidth_append (x := crc32 (f.control ++ f.slots) 68) (y := f.control ++ f.slots)).trans (by simp)
theorem Flit.bits_crc (f : Flit) : f.bits.extractLsb' 544 32 = crc32 (f.control ++ f.slots) 68 := BitVec.extractLsb'_append_eq_left
theorem Flit.bits_field (f : Flit) {lo n : Nat} (h : lo + n ≤ 544) : f.bits.extractLsb' lo n = (f.control ++ f.slots).extractLsb' lo n :=
  BitVec.extractLsb'_append_eq_of_add_le h

/-- Every flit that is sent is valid. -/
theorem flitValid_bits (f : Flit) : flitValid f.bits false = true := by
  simp only [flitValid, f.bits_body, f.bits_crc, Bool.not_false, beq_self_eq_true, Bool.and_self]

/-! ### The counterexample -/

/-- A running device with HPA in INIT_CREDIT. -/
def awaitsInit : State :=
  { State.reset with m := { State.reset.m with
    pins := { Pins.reset with coldRstN := true }
    links := [(Lnk.hpa.n, { LinkSt.reset with st := .initCredit })] } }
/-- An INIT flit whose role is that of a memory port's partner. -/
def foreignInit : Flit := ⟨4, 0, 0, 2 <<< 60⟩

theorem awaitsInit_live : Live awaitsInit := ⟨by decide, by decide⟩
theorem awaitsInit_st : (awaitsInit.m.link .hpa).st = .initCredit := by decide
theorem foreignInit_type : flitType foreignInit.bits = 4 := by
  rw [flitType, Flit.bits_field _ (by decide)]; decide +kernel
theorem foreignInit_first : flitResync foreignInit.bits = false := by
  have hbit : foreignInit.bits.extractLsb' 62 1 = 0 := by rw [Flit.bits_field _ (by decide)]; decide +kernel
  simpa [flitResync] using congrArg (·.getLsbD 0) hbit
theorem foreignInit_role : flitRole foreignInit.bits ≠ partnerRole .hpa := by
  rw [flitRole, Flit.bits_field _ (by decide)]; decide +kernel

theorem foreignInit_counted :
    ((awaitsInit.after (linkDown awaitsInit.env
      (violate awaitsInit.env (flitCounted awaitsInit.m .hpa) .hpa 0x06 none 0 0 false true) .hpa 0xB)).m.link .hpa).rxFlits = 1 := by
  decide +kernel
theorem foreignInit_statement_uncounted :
    ((awaitsInit.after (linkDown awaitsInit.env (violate awaitsInit.env awaitsInit.m .hpa 0x06 none 0 0 false true) .hpa 0xB)).m.link
      .hpa).rxFlits = 0 := by
  decide +kernel

/-- Refutes O30: `foreignInit` is counted, and the link that it brings DOWN keeps the count; the state that the statement gives has not
counted it. -/
theorem not_flitsOfEveryKind : ¬ Obligations.FlitsOfEveryKind := by
  intro h
  obtain ⟨-, hinvalid⟩ := h
  obtain ⟨-, hinit, -⟩ := hinvalid awaitsInit .hpa foreignInit.bits awaitsInit_live
  obtain ⟨-, hrole, -⟩ := hinit awaitsInit_st (flitValid_bits _) foreignInit_type foreignInit_first
  have heq := hrole foreignInit_role
  rw [exec_initFlitRx_wrongRole awaitsInit_live awaitsInit_st (flitValid_bits _) foreignInit_type foreignInit_first foreignInit_role] at heq
  have hflits := congrArg (fun s : State => (s.m.link .hpa).rxFlits) (Host.Outcome.next.inj heq)
  exact absurd (foreignInit_counted.symm.trans (hflits.trans foreignInit_statement_uncounted)) (by decide)

end Sys2Proof.Machine
end

section
/-!
O31. The timers of an ACTIVE link and its retraining (R322, R331, R338 to R341, R352 to R357).
-/

namespace Sys2Proof.Machine

open Sys2Proof

/-! ### Tables and time -/

/-- A key that has been set to no default and is set again holds the second value alone. -/
theorem Tab.put_put {α : Type} [DecidableEq α] {d : Nat → α} {k : Nat} {a : α} (h : a ≠ d k) (t : Tab α) (b : α) :
    Tab.put d (Tab.put d t k a) k b = Tab.put d t k b := by
  have hdrop (u : Tab α) : Tab.drop (· == k) (Tab.drop (· == k) u) = Tab.drop (· == k) u := by
    simp [Tab.drop, List.filter_filter]
  induction t with
  | nil => simp [Tab.put, h, Tab.drop]
  | cons x t ih =>
    obtain ⟨j, w⟩ := x
    by_cases hkj : k = j
    · subst hkj; simp [Tab.put, h, hdrop]
    · by_cases hlt : k < j
      · have hne : (j == k) = false := beq_eq_false_iff_ne.mpr (Ne.symm hkj)
        have hcons (u : Tab α) : Tab.drop (· == k) ((j, w) :: u) = (j, w) :: Tab.drop (· == k) u := by
          simp [Tab.drop, hne]
        simp [Tab.put, h, hkj, hlt, hdrop, hcons]
      · simp [Tab.put, hkj, hlt, ih]

theorem M.setLink_setLink {m : M} {l : Lnk} {x : LinkSt} (h : x ≠ .reset) (y : LinkSt) :
    (m.setLink l x).setLink l y = m.setLink l y := by
  unfold M.setLink
  simp only [Tab.put_put (d := fun _ => LinkSt.reset) h]

@[simp] theorem elapse_link (e : Env) (m : M) (n : Nat) (l : Lnk) : (elapse e m n).link l = m.link l := by
  obtain ⟨c, g, f, d, h⟩ := elapse_shape e m n
  rw [h]; rfl
@[simp] theorem elapseTo_link (e : Env) (m : M) (t : Nat) (l : Lnk) : (elapseTo e m t).link l = m.link l := elapse_link ..

theorem LinkSt.ne_reset {x : LinkSt} (h : x.st ≠ .down) : x ≠ .reset := fun e => h (by rw [e]; rfl)

/-! ### The timers -/

/-- With nothing to replay the acknowledgement timer starts nothing. -/
theorem timerReplays_idle {m : M} {l : Lnk} (hr : (m.link l).replay = []) (e : Env) (due : Nat) : timerReplays e l due m = m :=
  List.foldl_fixed' (fun _ => by simp [hr]) _

section
variable {s : State} {l : Lnk} (h : Live s) (ha : (s.m.link l).st = .active)
include h ha

theorem exec_nakResendTimer (hp : (s.m.link l).nakPending = true) :
    exec (.nakResendTimer l) s = .next (s.after (sendNak (elapseTo s.env s.m ((s.m.link l).nakTick + 50)) l)) := by
  change execNakResendTimer l s = _
  exact onLink_next h (by simp [ha, hp])

theorem exec_ackTimerExpiry (hr : (s.m.link l).replay ≠ []) {m : M} (hm : m = elapseTo s.env s.m ((s.m.link l).ackTick + 100)) :
    exec (.ackTimerExpiry l) s = .next (s.after (if (m.link l).nakReplay = some m.now then m.setLink l { m.link l with ackTick := m.now }
      else startReplay s.env (m.setLink l { m.link l with ackTick := m.now, timerReplay := some m.now }) l)) := by
  have hne : ({ m.link l with ackTick := m.now } : LinkSt) ≠ .reset := LinkSt.ne_reset (by simp [hm, ha])
  change execAckTimerExpiry l s = _
  refine onLink_next h ?_
  simp only [ackTimer, ha, List.isEmpty_eq_false_iff.mpr hr, ← hm, bne_self_eq_false, Bool.or_self, Bool.false_eq_true, if_false,
    M.setLink_link, M.setLink_setLink hne, M.setLink_now, beq_iff_eq]

theorem exec_replayNoProgress (hr : (s.m.link l).replay ≠ []) :
    exec (.replayNoProgress l) s = .next (s.after (timerReplays s.env l ((s.m.link l).ackTick + 400) s.m)) := by
  change execReplayNoProgress l s = _
  exact onLink_next h (by simp [ha, hr])

theorem exec_noFlitTimeout {m : M} (hm : m = timerReplays s.env l ((s.m.link l).lastValid + 5000) s.m) :
    exec (.noFlitTimeout l) s = .next (s.after (if (m.link l).st = .active then
      linkDown s.env (elapseTo s.env m ((s.m.link l).lastValid + 5000)) l 3 else m)) := by
  change execNoFlitTimeout l s = _
  refine onLink_next h ?_
  by_cases hst : (m.link l).st = .active <;> simp [ha, ← hm, hst]

theorem exec_crcWindow {n : Nat} {m : M} (hn : n = threshold s.env s.m l - (s.m.link l).winBad.length)
    (hm : m = if l = .ckl then bump s.env s.m (rLinkCnt l 2) n else count s.env (bump s.env s.m (rLinkCnt l 2) n) l.island 5 n none) :
    exec (.crcWindow l) s = .next (s.after (linkDown s.env (m.setLink l { m.link l with
      winBad := (List.range n).map (· + (s.m.link l).rxFlits) ++ (s.m.link l).winBad
      rxFlits := (s.m.link l).rxFlits + n }) l 1)) := by
  subst hm hn
  change execCrcWindow l s = _
  exact onLink_next h (by simp only [ha, LState.up, beq_self_eq_true, Bool.true_or, Bool.not_true, Bool.false_eq_true, if_false, beq_iff_eq])

end

/-! ### Retraining -/

section
variable {s : State} {l : Lnk} (h : Live s)
include h

theorem exec_lossOfSignal {lane : Fin 24} (hg : (s.m.link l).groups.getLsbD (lane.val / 8) = true) :
    exec (.lossOfSignal l lane) s = .next (s.after (enterRetrain s.env s.m l)) := by
  change execLossOfSignal l lane s = _
  exact onLink_next h (if_pos hg)

theorem exec_groupAlignmentLost {g : Fin 3} (ha : (s.m.link l).st = .active) (hg : (s.m.link l).groups.getLsbD g.val = true) :
    exec (.groupAlignmentLost l g) s = .next (s.after (enterRetrain s.env
      (countUnc s.env { s.m with free := s.m.free + 1 } l g.val (3 + (Config.lane s.m.free).toNat % 4)) l)) := by
  change execGroupAlignmentLost l g s = _
  exact onLink_next h (if_neg (by simp [ha, hg]))

theorem exec_laneLockTimeout {lane : Fin 24} {m : M} {f : BitVec 24} (hst : (s.m.link l).st = .retrain)
    (hg : (s.m.link l).groups.getLsbD (lane.val / 8) = true) (hm : m = elapseTo s.env s.m ((s.m.link l).since + 10000))
    (hf : f = (m.link l).rxFailed ||| ((1 : BitVec 24) <<< lane.val)) {a : M}
    (ha : a = m.setLink l { m.link l with rxFailed := f, groups := goodGroups f (m.link l).groups, aligned := false }) :
    exec (.laneLockTimeout l lane) s = .next (s.after
      (if goodGroups f (m.link l).groups = 0 then failAttempt s.env a l else a)) := by
  subst ha hf hm
  change execLaneLockTimeout l lane s = _
  refine onLink_next h ?_
  simp only [hst, hg, bne_self_eq_false, Bool.not_true, Bool.or_self, Bool.false_eq_true, if_false, beq_iff_eq]

theorem exec_retrainAttemptTimeout (hst : (s.m.link l).st = .retrain) :
    exec (.retrainAttemptTimeout l) s = .next (s.after
      (failAttempt s.env (elapseTo s.env s.m ((s.m.link l).since + 50000)) l)) := by
  change execRetrainAttemptTimeout l s = _
  exact onLink_next h (if_neg (by simp [hst]))

theorem exec_retrainCountReset (ha : (s.m.link l).st = .active) (hr : (s.m.link l).retrained = true) {m : M}
    (hm : m = elapseTo s.env s.m ((s.m.link l).since + 50000)) :
    exec (.retrainCountReset l) s = .next (s.after (m.setLink l { m.link l with retrainFails := 0, retrained := false })) := by
  subst hm
  change execRetrainCountReset l s = _
  exact onLink_next h (if_neg (by simp [ha, hr]))

end

/-- Settles O31. -/
theorem linkTimersAndRetraining : Obligations.LinkTimersAndRetraining := by
  refine ⟨fun s l h ha => ⟨exec_nakResendTimer h ha, fun hr m hm => ⟨fun hn => ?timer, fun hn => ?nakOfSameTick⟩,
      exec_replayNoProgress h ha, fun hr => ?silent, fun m hm hst => ?retrainedBefore, fun n m => exec_crcWindow h ha⟩,
    fun s l lane h => ⟨exec_lossOfSignal h, fun g => exec_groupAlignmentLost h,
      fun hst hg m f hm hf => ⟨fun hleft => ?groupsLeft, fun hnone => ?noGroup⟩, exec_retrainAttemptTimeout h,
      fun ha hr m => exec_retrainCountReset h ha hr⟩⟩
  case timer => rw [exec_ackTimerExpiry h ha hr hm, if_neg hn]
  case nakOfSameTick => rw [exec_ackTimerExpiry h ha hr hm, if_pos hn]
  case silent => rw [exec_noFlitTimeout h ha rfl, timerReplays_idle hr, if_pos ha]
  case retrainedBefore => rw [exec_noFlitTimeout h ha hm, if_neg hst]
  case groupsLeft => rw [exec_laneLockTimeout h hst hg hm hf rfl, if_neg hleft]
  case noGroup => rw [exec_laneLockTimeout h hst hg hm hf rfl, if_pos hnone]

end Sys2Proof.Machine
end

section
/-!
O32 and O33. Training from DOWN to INIT_CREDIT (Table 7.13, R309, R312, R348 to R350), and the port events, the port resets and the memory
ports (R214, R402, R413, R414, R902).
-/

namespace Sys2Proof.Machine

open Sys2Proof

/-! ### Training -/

section
variable {s : State} {l : Lnk} (h : Live s)
include h

theorem exec_downToDetect (hst : (s.m.link l).st = .down) (hleave : mayLeaveDown s.env s.m l = true) {m : M}
    (hm : m = elapseTo s.env s.m ((s.m.link l).since + 500)) :
    exec (.downToDetect l) s = .next (s.after (m.setLink l { m.link l with
      st := .detect, since := m.now, rxFailed := 0, txFailed := 0, ran := true })) := by
  subst hm
  change execDownToDetect l s = _
  exact onLink_next h (if_neg (by simp [hst, hleave]))

theorem exec_partnerDetected {g : BitVec 3} (hst : (s.m.link l).st = .detect) (hg : g &&& l.allGroups ≠ 0) :
    exec (.partnerDetected l g) s = .next (s.after (s.m.setLink l { s.m.link l with
      st := .trainEq, since := s.m.now, trained := g &&& l.allGroups, taps := presets s.env s.m l, atLimit := [] })) := by
  have hbusy : ((s.m.link l).st != .detect || g &&& l.allGroups == 0) = false := by
    rw [hst, beq_eq_false_iff_ne.mpr hg]; rfl
  change execPartnerDetected l g s = _
  exact onLink_next h (if_neg (by rw [hbusy]; exact Bool.false_ne_true))

theorem exec_trainEqDone {a b : BitVec 24} {taps : List TapRequest} {y : LinkSt} {m : M} (hst : (s.m.link l).st = .trainEq)
    (hy : y = taps.foldl (tapRequest s.env) (s.m.link l))
    (hm : m = s.m.setLink l { y with rxFailed := a, txFailed := b, trained := goodGroups (a ||| b) y.trained }) :
    exec (.trainEqDone l a ⟨b, taps⟩) s = .next (s.after (if goodGroups (a ||| b) y.trained = 0 then linkDown s.env m l 7
      else m.setLink l { m.link l with st := .align, since := m.now })) := by
  subst hm hy
  change execTrainEqDone l a ⟨b, taps⟩ s = _
  refine onLink_next h ?_
  simp only [hst, bne_self_eq_false, Bool.false_eq_true, if_false, beq_iff_eq]

theorem exec_trainEqTimeout (hst : (s.m.link l).st = .trainEq) :
    exec (.trainEqTimeout l) s = .next (s.after (linkDown s.env (elapseTo s.env s.m ((s.m.link l).since + 2500000)) l 7)) := by
  change execTrainEqTimeout l s = _
  exact onLink_next h (if_neg (by simp [hst]))

section
variable {p : BitVec 3} {w : Fin 3} {lanes : List LaneLearned} {c : BitVec 3} {m : M} {g : BitVec 3}
  (hc : c = goodGroups ((s.m.link l).rxFailed ||| (s.m.link l).txFailed) (s.m.link l).trained &&& p)
  (hm : m = s.m.setLink l { s.m.link l with
    partnerMax := w.val + 1, common := c, laneMap := learnLanes (s.m.link l).laneMap lanes })
  (hg : g = chooseGroups s.env m l c)
include hc hm hg

theorem exec_alignDone_first (hst : (s.m.link l).st = .align) :
    exec (.alignDone l ⟨p, w, lanes⟩) s = .next (s.after (if g = 0 then linkDown s.env m l 6
      else control (m.setLink l { m.link l with st := .initCredit, since := m.now, groups := g }) l (.init false))) := by
  subst hg hm hc
  change execAlignDone l ⟨p, w, lanes⟩ s = _
  refine onLink_next h ?_
  simp only [hst, beq_iff_eq]

theorem exec_alignDone_retrain (hst : (s.m.link l).st = .retrain) (h0 : g ≠ 0) :
    exec (.alignDone l ⟨p, w, lanes⟩) s = .next (s.after
      (control (m.setLink l { m.link l with groups := g, aligned := true }) l (.init true))) := by
  subst hg hm hc
  change execAlignDone l ⟨p, w, lanes⟩ s = _
  refine onLink_next h ?_
  simp only [hst, beq_iff_eq] at h0 ⊢
  exact if_neg h0

end

theorem exec_alignTimeout (hst : (s.m.link l).st = .align) :
    exec (.alignTimeout l) s = .next (s.after (linkDown s.env (elapseTo s.env s.m ((s.m.link l).since + 100000)) l 8)) := by
  change execAlignTimeout l s = _
  exact onLink_next h (if_neg (by simp [hst]))

theorem exec_initTimeout (hst : (s.m.link l).st = .initCredit) :
    exec (.initTimeout l) s = .next (s.after (linkDown s.env (elapseTo s.env s.m ((s.m.link l).since + 50000)) l 9)) := by
  change execInitTimeout l s = _
  exact onLink_next h (if_neg (by simp [hst]))

end

/-- Settles O32. -/
theorem training : Obligations.Training := by
  intro s l x h hx
  subst hx
  refine ⟨fun hst hleave m => exec_downToDetect h hst hleave, fun g => exec_partnerDetected h,
    fun a b taps y m hst hy hm => ⟨fun hgood => ?trained, fun hnone => ?untrained⟩, exec_trainEqTimeout h,
    fun p w lanes c m g hc hm hg => ⟨fun hst h0 => ?aligned, fun hst h0 => ?noGroups, exec_alignDone_retrain h hc hm hg⟩,
    exec_alignTimeout h, exec_initTimeout h⟩
  case trained => rw [exec_trainEqDone h hst hy hm, if_neg hgood]
  case untrained => rw [exec_trainEqDone h hst hy hm, if_pos hnone]
  case aligned => rw [exec_alignDone_first h hc hm hg hst, if_neg h0]
  case noGroups => rw [exec_alignDone_first h hc hm hg hst, if_pos h0]

/-! ### Port events and resets -/

theorem LState.up_iff {x : LState} : x.up = true ↔ x = .active ∨ x = .retrain := by simp [LState.up]

section
variable {s : State} (h : Live s)
include h

theorem exec_portEvent (p : HPort) :
    exec (.portEvent p) s = .next (s.after
      (if (s.m.link p.lnk).st.up then linkDown s.env s.m p.lnk 0xC else hostEvent s.env s.m p)) := by
  change execPortEvent p s = _
  exact act_live h _

theorem exec_portReset (l : Lnk) : exec (.portReset l) s = .next (s.after (portReset s.env s.m l)) := by
  change execPortReset l s = _
  exact act_live h _

theorem exec_memportDown {p : MPort} (hup : (s.m.link p.lnk).st.up = true) :
    exec (.memportDown p) s = .next (s.after (linkDown s.env s.m p.lnk 0xC)) := by
  change execMemportDown p s = _
  exact act_next h (if_pos hup)

theorem exec_memTimeout {p : MPort} {tag : Tag} {r : MemReq} {t : Nat} (hr : memFind s.m p tag = some r) (ht : r.sent = some t) :
    exec (.memTimeout p tag) s = .next (s.after (portReset s.env
      (log s.env (elapseTo s.env s.m (t + 500000)) 0x0302 p.lnk.n (tag.setWidth 32) 0 (r.line.setWidth 64)) p.lnk)) := by
  change execMemTimeout p tag s = _
  exact act_next h (by simp only [hr, ht, Option.bind_some, Option.map_some])

end

/-- Settles O33. -/
theorem portEvents : Obligations.PortEvents := by
  refine fun s h => ⟨fun p hup => ?up, fun p ha hr => ?down, exec_portReset h, fun p hup => exec_memportDown h (LState.up_iff.mpr hup),
    fun p tag r t => exec_memTimeout h⟩
  case up => rw [exec_portEvent h, if_pos (LState.up_iff.mpr hup)]
  case down => rw [exec_portEvent h, if_neg fun hup => (LState.up_iff.mp hup).elim ha hr]

end Sys2Proof.Machine
end

section
/-!
O34 and O35. Snoops and grants without an answer (R185, R198, R209, R210), trackers and recovery (R206, R215, R217), and the timers of
reservations (R253, R259, R260).
-/

namespace Sys2Proof.Machine

open Sys2Proof

/-! ### Snoops and grants -/

theorem snoopTimer_next {s : State} {p : HPort} {tag : Tag} {f : Snp → Bool} {t : Txn} {y : Snp} {left : Nat} (h : Live s)
    (hf : findSnp s.m p tag = some (t, y)) (hs : y.sent = some left) (hh : y.held = false) (hd : sliceDead s.m (sliceOf t.req.line) = false)
    (hk : f y = true) :
    snoopTimer s p tag f = .next (s.after (snoopLost s.env (elapseTo s.env s.m (left + 1000)) t y)) := by
  unfold snoopTimer
  exact act_next h (by simp only [hf, hs, hh, hd, hk, Bool.not_true, Bool.or_self, Bool.false_eq_true, if_false])

/-- A grant whose tag is void: the rollback is logged and counted. -/
def rollbackLogged (e : Env) (m : M) (t : Txn) : M :=
  count e (log e (m.setPort t.req.port { m.port t.req.port with voided := t.req.tag :: (m.port t.req.port).voided })
    0x0204 (sliceOf t.req.line) (t.req.agent.setWidth 32) 0 (t.req.line.setWidth 64)) (sliceOf t.req.line) 0xA 1 none

section
variable {s : State} {p : HPort} {tag : Tag} {t : Txn} {m n : M} {left : Nat} (h : Live s) (hs : t.sent = some left)
  (ht : s.m.coh.txns.find? (fun t => t.phase == .granted && t.req.port == p && t.req.tag == tag) = some t)
  (hd : sliceDead s.m (sliceOf t.req.line) = false) (hm : m = elapseTo s.env s.m (left + 200))
  (ho : (m.port t.req.port).outstanding.any (fun x => x.1 == t.req.tag) = true) (hn : n = rollbackLogged s.env m t)
include h hs ht hd hm ho hn

theorem exec_grantRollback_fenced (hf : agentFenced s.env n t.req.agent = true) :
    exec (.grantRollback p tag) s = .next (s.after (endRollback s.env
      (if t.grant = .s then n else poisonLine s.env n t.req.line) t.req.line)) := by
  subst hn hm
  change execGrantRollback p tag s = _
  refine act_next h ?_
  unfold rollbackLogged at hf
  simp only [ht, hs, hd, rollback, ho, if_true, hf, Bool.false_eq_true, if_false]
  by_cases hg : t.grant = .s <;> simp [hg, rollbackLogged]

theorem exec_grantRollback_snoop {o : M} {y : Snp} (hf : agentFenced s.env n t.req.agent = false)
    (hy : sendSnoop s.env n t.req.line .inv t.req.port t.req.agent false (t.grant != .s) = (o, y)) :
    exec (.grantRollback p tag) s = .next (s.after
      (o.updTxn t.req.line fun t => { t with phase := .rollback, snoops := [y], sent := none })) := by
  subst hn hm
  change execGrantRollback p tag s = _
  refine act_next h ?_
  unfold rollbackLogged at hf hy
  simp only [ht, hs, hd, rollback, ho, if_true, hf, hy, Bool.false_eq_true, if_false]

end

/-- Settles O34. -/
theorem snoopsAndGrantsTimeOut : Obligations.SnoopsAndGrantsTimeOut := by
  refine fun s p tag h => ⟨fun t y left hf hs hh hd => ⟨fun hb he => ?single, fun hb he => ?bcast, fun he => ?evp⟩,
    fun t m n left hs ht hd hm ho hn => ⟨exec_grantRollback_fenced h hs ht hd hm ho hn,
      fun o y => exec_grantRollback_snoop h hs ht hd hm ho hn⟩⟩
  case single => change execSnoopTimeout p tag s = _; exact snoopTimer_next h hf hs hh hd (by simp [hb, he])
  case bcast => change execBcastSnoopTimeout p tag s = _; exact snoopTimer_next h hf hs hh hd (by simp [hb, he])
  case evp => change execEvpWaitTimeout p tag s = _; exact snoopTimer_next h hf hs hh hd he

/-! ### Trackers and recovery -/

section
variable {s : State} (h : Live s)
include h

theorem exec_backInvalFree {x : Fin 16} {ts : List Txn}
    (hts : ts = s.m.coh.txns.filter (fun t => t.phase == .tracker && sliceOf t.req.line == x.val)) (hd : sliceDead s.m x.val = false) :
    exec (.backInvalFree x) s = .next (s.after (ts.foldl (fun m t =>
      if 16 ≤ trackers m x.val || !m.coh.txns.contains t then m else dirRetry s.env m t) s.m)) := by
  subst hts
  change execBackInvalFree x s = _
  exact act_next h (if_neg (by simp [hd]))

theorem exec_recoveryWindowExpiry {p : HPort} {w : Nat} {m : M} (hw : (s.m.port p).window = some w) (hi : (s.m.port p).interval = none)
    (hm : m = (poisonAll s.env (elapseTo s.env s.m (w + 50000)) p).1) :
    exec (.recoveryWindowExpiry p) s = .next (s.after (m.setPort p { m.port p with window := none, rolledBack := [] })) := by
  subst hm
  change execRecoveryWindowExpiry p s = _
  exact act_next h (by simp only [hw, hi])

theorem exec_recoveryIntervalEnd {p : HPort} {a b c d : Nat} (hi : (s.m.port p).interval = some (a, b, c, d)) :
    exec (.recoveryIntervalEnd p) s = .next (s.after (endInterval s.env (elapseTo s.env s.m (a + b)) p)) := by
  change execRecoveryIntervalEnd p s = _
  exact act_next h (by simp only [hi])

/-! ### The timers of reservations -/

theorem exec_rsvSlotExpiry {x : Fin 16} {k : Fin 8} (ha : (s.m.slot x.val k.val).armed = true) :
    exec (.rsvSlotExpiry x k) s = .next (s.after
      (clearSlot (elapseTo s.env s.m ((s.m.slot x.val k.val).tick + 800)) x.val k.val)) := by
  change execRsvSlotExpiry x k s = _
  exact act_next h (if_neg (by simp [ha]))

theorem exec_starveHeadTimeout {x : Fin 16} {a : Agent} {l : Line} {t : Nat} {rest : List (Agent × Line × Nat)}
    (hq : s.m.starve x.val = (a, l, t) :: rest) (hg : guardOn s.m l ≠ some a)
    (hw : s.m.coh.waiting.any (fun r => r.op == .rsvLd && r.agent == a && r.line == l) = false)
    (ht : s.m.coh.txns.any (fun y => y.req.op == .rsvLd && y.req.agent == a && y.req.line == l) = false)
    (hh : (s.m.port (agentPort a)).hold.any (fun r => r.op == .rsvLd && r.agent == a && r.line == l) = false)
    (he : ((s.m.port (agentPort a)).epochsOf a).hold.any (fun r => r.op == .rsvLd && r.agent == a && r.line == l) = false) :
    exec (.starveHeadTimeout x) s = .next (s.after (leaveStarve (elapseTo s.env s.m (t + 200)) x.val a)) := by
  change execStarveHeadTimeout x s = _
  exact act_next h (by simp only [hq, beq_eq_false_iff_ne.mpr hg, hw, ht, hh, he, Bool.or_self, Bool.false_eq_true, if_false])

theorem exec_rsvGuardExpiry {x : Fin 16} {k left : Nat}
    (hk : (List.range 8).find? (fun k => (s.m.slot x.val k).armed && (s.m.slot x.val k).guarded) = some k)
    (hs : (s.m.slot x.val k).sent = some left) :
    exec (.rsvGuardExpiry x) s = .next (s.after (leaveStarve
      ((elapseTo s.env s.m (left + 100)).setSlot x.val k { s.m.slot x.val k with guarded := false })
      x.val (s.m.slot x.val k).agent)) := by
  change execRsvGuardExpiry x s = _
  exact act_next h (by simp only [hk, hs])

end

/-- Settles O35. -/
theorem trackersRecoveryReservations : Obligations.TrackersRecoveryReservations :=
  ⟨fun _ h => ⟨fun _ _ => exec_backInvalFree h, fun _ _ _ => exec_recoveryWindowExpiry h, fun _ _ _ _ _ => exec_recoveryIntervalEnd h⟩,
    fun _ _ h => ⟨fun _ => exec_rsvSlotExpiry h, fun _ _ _ _ => exec_starveHeadTimeout h, fun _ _ => exec_rsvGuardExpiry h⟩⟩

end Sys2Proof.Machine
end

section
/-!
O36 and O37. Attribute spans, the data array's answers and free entries (R49, R54, R156 to R160, R288, R465), and the timers of sticks and
end-point notices (R70, R273, R295 to R299).
-/

namespace Sys2Proof.Machine

open Sys2Proof

section
variable {s : State} (h : Live s)
include h

/-! ### Attribute spans -/

theorem exec_attrSpanFill {x : Fin 16} {folio : Folio} {waits : Txn → Bool} {m : M} {ts : List Txn} {lo hi : Nat}
    (hwaits : ∀ t, waits t = (t.phase == .attr && sliceOf t.req.line == x.val))
    (hany : s.m.coh.txns.any (fun t => waits t && folioOf t.req.line == folio) = true) (hd : sliceDead s.m x.val = false)
    (hm : m = fillSpan s.env s.m x.val folio.toNat) (hspan : (lo, hi) = ratSpan s.cfg.rat folio.toNat)
    (hts : ts = m.coh.txns.filter (fun t =>
      waits t && decide (lo ≤ (folioOf t.req.line).toNat) && decide ((folioOf t.req.line).toNat ≤ hi))) :
    exec (.attrSpanFill x folio) s = .next (s.after (ts.foldl (fun m t => withAttrs s.env
      (noteLooked (m.setCoh fun c => { c with txns := c.txns.erase t }) t.req) t.req (ratAttrs s.cfg.rat folio.toNat) t.cndOk) m)) := by
  obtain rfl : waits = fun t => t.phase == .attr && sliceOf t.req.line == x.val := funext hwaits
  subst hts hm
  change execAttrSpanFill x folio s = _
  refine act_next h ?_
  simp only [hany, hd, State.env, ← hspan, Bool.not_true, Bool.or_self, Bool.false_eq_true, if_false]

theorem exec_attrSpanExpiry {x : Fin 16} {folio : Folio} {y : Span} {rate : Nat} {m : M} (hrate : rate = sliceRate s.m x.val)
    (hy : (s.m.spans x.val).find? (fun y => decide (y.lo ≤ folio.toNat) && decide (folio.toNat ≤ y.hi)) = some y)
    (hm : m = elapseTo s.env s.m (y.filled + (65536 - y.cycles + rate - 1) / rate)) :
    exec (.attrSpanExpiry x folio) s = .next (s.after (m.setSpans x.val ((m.spans x.val).erase y))) := by
  subst hm hrate
  change execAttrSpanExpiry x folio s = _
  exact act_next h (by simp only [hy])

/-! ### The data array and free entries -/

theorem exec_daReadDone {line : Line} (hd : sliceDead s.m (sliceOf line) = false) (err0 err1 : BitVec 40) :
    exec (.daReadDone line err0 err1) s = .next (s.after (daReadDone s.env s.m line err0 err1)) := by
  change execDaReadDone line err0 err1 s = _
  exact act_next h (if_neg (by simp [hd]))

theorem exec_daWriteDone {line : Line} (hd : sliceDead s.m (sliceOf line) = false) :
    exec (.daWriteDone line) s = .next (s.after (daWriteDone s.env s.m line)) := by
  change execDaWriteDone line s = _
  exact act_next h (if_neg (by simp [hd]))

theorem exec_galleyEntryFree (line : Line) :
    exec (.galleyEntryFree line) s = .next (s.after (galleyFree s.env s.m (sliceOf line))) := by
  change execGalleyEntryFree line s = _
  exact act_live h _

theorem exec_fillStagingRelease (x : Fin 16) :
    exec (.fillStagingRelease x) s = .next (s.after (stagingFree s.env s.m x.val)) := by
  change execFillStagingRelease x s = _
  exact act_live h _

/-! ### Sticks and notices -/

theorem exec_stickOpenReply {p : HPort} {line : Line} (hr : sliceReady s.m (sliceOf line) = true) :
    exec (.stickOpenReply p line) s = .next (s.after (stickReply s.env s.m p line)) := by
  change execStickOpenReply p line s = _
  exact act_next h (if_pos hr)

theorem exec_stickFlushDemand {p : HPort} {line : Line} {r : Bool} (hd : demandsFlush s.env s.m p line = (true, r)) :
    exec (.stickFlushDemand p line) s = .next (s.after (flushStick s.env s.m p line (if r then 5 else 4) false)) := by
  change execStickFlushDemand p line s = _
  exact act_next h (by simp only [hd, if_true])

theorem exec_stickTimeout {p : HPort} {line : Line} {y : Stick} (hy : s.m.stickAt p line = some y) :
    exec (.stickTimeout p line) s = .next (s.after (flushStick s.env (elapseTo s.env s.m (y.tick + 50)) p line 1 false)) := by
  change execStickTimeout p line s = _
  exact act_next h (by simp only [hy])

theorem exec_endPointNotice {p : HPort} {a : Agent} {n : Nat} {y : Nat × HPort × Agent × Nat}
    (hy : s.m.coh.notices.find? (fun n' => n'.2 == (p, a, n)
      && (s.m.coh.notices.find? fun z => z.1 == n'.1 && z.2.1 == p) == some n') = some y) :
    exec (.endPointNotice p a n) s = .next (s.after
      (decEpoch s.env (s.m.setCoh fun c => { c with notices := c.notices.erase y }) p a n)) := by
  change execEndPointNotice p a n s = _
  exact act_next h (by simp only [hy])

end

/-- Settles O36. -/
theorem spansArrayEntries : Obligations.SpansArrayEntries :=
  ⟨fun _ _ _ h => ⟨fun _ _ _ _ _ => exec_attrSpanFill h, fun _ _ _ => exec_attrSpanExpiry h⟩,
    fun _ line err0 err1 h hd => ⟨exec_daReadDone h hd err0 err1, exec_daWriteDone h hd, exec_galleyEntryFree h line,
      exec_fillStagingRelease h⟩⟩

/-- Settles O37. -/
theorem stickTimersAndNotices : Obligations.StickTimersAndNotices := fun _ _ _ h =>
  ⟨exec_stickOpenReply h, fun _ => exec_stickFlushDemand h, fun _ => exec_stickTimeout h, fun _ _ _ => exec_endPointNotice h⟩

end Sys2Proof.Machine
end

section
/-!
O38. Islands stop and wake (R72 to R86, R92, R103), and failed clocks (R91, R100 to R111).
-/

namespace Sys2Proof.Machine

open Sys2Proof

section
variable {s : State} (h : Live s)
include h

/-! ### Stopping and waking -/

theorem exec_islandStop {i : Fin 32} (hfw : s.m.jpc.fw = .running) (hc : canStop s.env s.m i = true) :
    exec (.islandStop i) s = .next (s.withM (stopIsland s.env s.m i)) := by
  change execIslandStop i s = _
  exact run_next h (if_pos (by simp [hfw, hc]))

theorem exec_islandWake {i : Fin 32} {c : WakeCause} (hr : c = .refresh →
      21 ≤ i.val ∧ i.val < 29 ∧ (s.m.dac (i.val - 21)).sref = false ∧ (s.m.dac (i.val - 21)).st ≠ .failed)
    (hf : c = .firmware → s.m.jpc.fw = .running) :
    exec (.islandWake i c) s = .next (s.withM (if c = .message ∧ 21 ≤ i.val ∧ i.val < 29
      then leaveSref (wakeIsland s.env s.m i) (i.val - 21) else wakeIsland s.env s.m i)) := by
  change execIslandWake i c s = _
  refine run_next h ((if_neg ?refresh).trans ((if_neg ?firmware).trans (if_congr ?message rfl rfl)))
  case refresh =>
    simp only [Bool.and_eq_true, beq_iff_eq, not_and]
    intro hc
    obtain ⟨hlo, hhi, hsref, hst⟩ := hr hc
    simp [hlo, hhi, hsref, hst]
  case firmware =>
    simp only [Bool.and_eq_true, beq_iff_eq, bne_iff_ne, not_and, not_not]
    exact hf
  case message => simp [and_comm]

theorem exec_wakeReadyTimeout {i : Fin 32} (hi : stoppable i = true) (hrun : s.m.isl.run.getLsbD i = false) :
    exec (.wakeReadyTimeout i) s = .next (s.after (clkFail s.env (elapse s.env s.m 100) i 5)) := by
  change execWakeReadyTimeout i s = _
  exact act_next h (if_neg (by simp [hi, hrun, -BitVec.getLsbD_eq_getElem]))

theorem exec_mirrorCapture {m : M} (hm : m = (List.range 32).foldl (fun m i => if m.island i then captureIsland s.env m i else m) s.m) :
    exec .mirrorCapture s = .next (s.withM (m.setIsl fun x => { x with mirrorTick := some m.now })) := by
  subst hm
  change execMirrorCapture s = _
  exact runLive_live h _

/-! ### The clock check -/

/-- The machine at the end of a check window, with no island left out of the next one. -/
def windowEnded (e : Env) (m : M) : M := (elapseTo e m ((m.now / 256 + 1) * 256)).setIsl fun x => { x with excluded := 0 }

section
variable {i : Fin 31} {n : Nat} {m : M} (hm : m = windowEnded s.env s.m) (hx : m.isl.clkFail.getLsbD 31 = false)
  (hi : m.island i = true) (he : (elapseTo s.env s.m ((s.m.now / 256 + 1) * 256)).isl.excluded.getLsbD i = false)
include hm hx hi he

/-- A window that checks one island: what is done turns on its count and on the window before. -/
theorem exec_clockCheckWindow_count : exec (.clockCheckWindow ⟨[(i, n)], []⟩) s = .next (s.after
    (if !countBad (expectedCount s.env m i) n then m.setIsl fun x => { x with failedWindow := x.failedWindow &&& ~~~((1 : Word) <<< i.val) }
     else if m.isl.failedWindow.getLsbD i then clkFail s.env m i 5
     else m.setIsl fun x => { x with failedWindow := x.failedWindow ||| ((1 : Word) <<< i.val) })) := by
  subst hm
  change execClockCheckWindow _ s = _
  have hskip : ¬ ((!(windowEnded s.env s.m).island i
      || (elapseTo s.env s.m ((s.m.now / 256 + 1) * 256)).isl.excluded.getLsbD i) = true) := by rw [hi, he]; decide
  exact act_next h ((if_neg (Bool.eq_false_iff.mp hx)).trans (if_neg hskip))

end

theorem exec_clockCheckWindow_refLost {l : Lnk} {m : M} (hm : m = elapseTo s.env s.m ((s.m.now / 256 + 1) * 256))
    (hl : (m.link l).st ≠ .down) :
    exec (.clockCheckWindow ⟨[], [l]⟩) s = .next (s.after ((linkDown s.env m l 4).setIsl fun x => { x with excluded := 0 })) := by
  subst hm
  change execClockCheckWindow _ s = _
  refine act_next h ?_
  have hr : refLoss s.env (elapseTo s.env s.m ((s.m.now / 256 + 1) * 256)) l
      = linkDown s.env (elapseTo s.env s.m ((s.m.now / 256 + 1) * 256)) l 4 := if_neg (mt beq_iff_eq.mp hl)
  simp only [List.foldl_cons, List.foldl_nil, hr, ite_self]

/-! ### PLLs, the crystal and abandoned accesses -/

theorem exec_pllLockTimeout {u : BitVec 32} (hp : s.m.boot.phase = 1) :
    exec (.pllLockTimeout u) s = .next (s.after ((List.range 31).foldl
      (fun m i => if u.getLsbD i then unlockedPll s.env m i else m) (elapseTo s.env s.m (s.m.boot.since + 50000)))) := by
  change execPllLockTimeout u s = _
  exact act_next h (if_neg (by simp [hp]))

theorem exec_xtalLost (hx : s.m.isl.clkFail.getLsbD 31 = false) :
    exec .xtalLost s = .next (s.withM
      (log s.env (s.m.setIsl fun x => { x with clkFail := x.clkFail ||| 0x80000000 }) 0x0002 31 0 0 0)) := by
  change execXtalLost s = _
  exact run_next h (if_neg (by simp [hx, -BitVec.getLsbD_eq_getElem]))

theorem exec_accessAbandon (p : Path) (i : Fin 32) (a : Word) (w : Bool) :
    exec (.accessAbandon p i a w) s = .next (s.withM (showAbandoned
      (log s.env (elapse s.env s.m 100) 0x0003 i.val (BitVec.ofNat 32 i) a 0) p w a)) := by
  change execAccessAbandon p i a w s = _
  exact runLive_live h _

end

/-- Settles O38. -/
theorem islandsAndClocks : Obligations.IslandsAndClocks := by
  refine ⟨fun s i h => ⟨fun hfw hc _ => exec_islandStop h hfw hc, fun _ => exec_islandWake h, exec_wakeReadyTimeout h,
      fun _ => exec_mirrorCapture h⟩,
    fun s h => ⟨fun i n m _ hm hx hi he => ?counts, fun _ _ => exec_clockCheckWindow_refLost h, fun _ => exec_pllLockTimeout h,
      exec_xtalLost h, exec_accessAbandon h⟩⟩
  case counts =>
    have hw := exec_clockCheckWindow_count (n := n) h hm hx hi he
    refine ⟨fun hg => ?_, fun hb hf => ?_, fun hb hf => ?_⟩
    · rw [hw, hg]; rfl
    · rw [hw, hb, hf]; rfl
    · rw [hw, hb, hf]; rfl

end Sys2Proof.Machine
end

section
/-!
O39 and O40. The data-array channels (R454 to R460, R757), energy and the hardware ceiling (R705 to R709, R724 to R729), and the die
temperature (R731 to R733).
-/

namespace Sys2Proof.Machine

open Sys2Proof

section
variable {s : State} (h : Live s)
include h

/-! ### Training and diagnosis of a channel -/

theorem exec_daTraining {d : Fin 8} {r : TrainResult} (hp : s.m.boot.phase = 3) (hs : s.m.boot.stopped = false)
    (hfw : s.m.jpc.fw = .running) (hd : dacPresent s.env d = true) :
    exec (.daTraining d r) s = .next (s.after (endTraining s.env s.m d r)) := by
  change execDaTraining d r s = _
  exact act_next h (if_neg (by simp [hp, hs, hfw, hd]))

theorem exec_pinDiagnosis {d : Fin 8} {a : BitVec 26} (ha : (s.m.dac d).diag = some a) (x : List (BitVec 40)) :
    exec (.pinDiagnosis d x) s = .next (s.after (diagnose s.env s.m d a.toNat x)) := by
  change execPinDiagnosis d x s = _
  exact act_next h (by simp only [ha])

/-! ### The commands of a channel that runs -/

section
variable {d : Fin 8} (hd : dacPresent s.env d = true) (hst : (s.m.dac d).st = .active) (hsr : (s.m.dac d).sref = false)

omit h in
include hd hst hsr in
/-- What the channel's own commands ask of it. -/
theorem dac_awake : ¬ (!dacPresent s.env d || (s.m.dac d).st != .active || (s.m.dac d).sref) = true := by simp [hd, hst, hsr]

include hd hst hsr

theorem exec_refreshDue {m : M} (hm : m = wakeIsland s.env s.m (dacIsland d)) :
    exec (.refreshDue d) s = .next (s.withM (count s.env
      (m.setDac d { m.dac d with rate2x := (m.dac d).rateNext, sameBank := (m.dac d).sameBankNext })
      (dacIsland d) 6 (if (m.dac d).sameBankNext then 4 else 1) none)) := by
  subst hm
  change execRefreshDue d s = _
  exact run_next h (if_neg (dac_awake hd hst hsr))

theorem exec_mr4Poll (b : Bool) : exec (.mr4Poll d b) s = .next (s.withM (s.m.setDac d { s.m.dac d with rateNext := b })) := by
  change execMr4Poll d b s = _
  exact run_next h (if_neg (dac_awake hd hst hsr))

theorem exec_dqsTracking : exec (.dqsTracking d) s = .next (s.withM (s.m.setDac d { s.m.dac d with tracked := true })) := by
  change execDqsTracking d s = _
  exact run_next h (if_neg (dac_awake hd hst hsr))

end

end

/-- Settles O39. -/
theorem channelCommands : Obligations.ChannelCommands := fun _ _ h =>
  ⟨fun _ => exec_daTraining h,
    fun hd hst hsr => ⟨fun _ => exec_refreshDue h hd hst hsr, exec_mr4Poll h hd hst hsr, exec_dqsTracking h hd hst hsr⟩,
    fun _ x ha => exec_pinDiagnosis h ha x⟩

section
variable {s : State} (h : Live s)
include h

/-! ### Energy -/

theorem exec_inkSample {rails task : List Nat} {est : Nat} {m : M} (hm : m = elapseTo s.env s.m (s.m.ink.sampleTick + 50)) :
    exec (.inkSample rails est task) s = .next (s.withM { m.setInk (fun i => { i with
      sampleTick := m.now, meas := i.meas + (List.range 7).foldl (fun n k => n + railValue m rails k) 0, est := i.est + est
      estTask := listAdd i.estTask task }) with free := m.free + 7 }) := by
  subst hm
  change execInkSample rails est task s = _
  exact runLive_live h _

theorem exec_inkSensorFault {r : Fin 7} (hr : s.m.ink.sensorFault.getLsbD r = false) :
    exec (.inkSensorFault r) s = .next (s.withM (log s.env
      (s.m.setInk fun i => { i with sensorFault := i.sensorFault ||| ((1 : BitVec 7) <<< r.val) }) 0x0801 31 (BitVec.ofNat 32 r) 0 0)) := by
  change execInkSensorFault r s = _
  exact run_next h (if_neg (Bool.eq_false_iff.mp hr))

theorem exec_ceilBucketRefill {n left : Nat} {m : M} (hm : m = elapseTo s.env s.m (s.m.ink.refillTick + 50))
    (hl : left = min (20 * (effCeil s.env m * 250)) (m.ink.bucket + effCeil s.env m * 250 - n) - Config.issueEnergy m.free) :
    exec (.ceilBucketRefill n) s = .next (s.withM { m.setInk (fun i => { i with
      bucket := left, refillTick := m.now, ceilLimiting := decide (left < Config.issueEnergy (m.free + 1))
      ceilUs := i.ceilUs + bit (decide (left < Config.issueEnergy (m.free + 1))) }) with free := m.free + 2 }) := by
  subst hl hm
  change execCeilBucketRefill n s = _
  exact runLive_live h _

theorem exec_ceilUnmet {w : Nat} (hw : effCeil s.env s.m * 103 < w * 100) (hl : s.m.ink.ceilLimiting = true) :
    exec (.ceilUnmet w) s = .next (s.withM (log s.env
      (wr s.env s.m rCeilUnmet (rd s.env s.m rCeilUnmet ||| 8)) 0x0802 31 (BitVec.ofNat 32 w) 0 0)) := by
  change execCeilUnmet w s = _
  exact run_next h (if_neg (by simp [hl, hw]))

/-! ### The die temperature -/

/-- The machine with the sample taken and the warning as the temperature has it (R731). -/
def warned (e : Env) (m : M) (t : BitVec 8) : M :=
  if 100 ≤ t.toInt then
    (if m.ink.warn then m else log e (m.setInk fun i => { i with warn := true }) 0x0803 31 (t.signExtend 32) 0 0)
  else if t.toInt < 97 then m.setInk fun i => { i with warn := false }
  else m

/-- The throttle's start, 5 W below the lesser of the ceiling and the last epoch's power (R732). -/
def throttled (e : Env) (n : M) (t : BitVec 8) : M :=
  log e (n.setInk fun i => { i with
    throttle := true, throttleTick := n.now, thermCeil := some (min (guardCeil e n) ((rd e n 0x5007).toNat / 250) - 20) })
    0x0804 31 (t.signExtend 32) 0 0

section
variable {t : BitVec 8} {e m : M} (he : e = elapseTo s.env s.m (s.m.ink.thermTick + 5000))
  (hm : m = e.setInk fun i => { i with temp := t, thermTick := e.now })
include he hm

theorem exec_thermalSample : exec (.thermalSample t) s = .next (s.withM (
    if 105 ≤ t.toInt && !(warned s.env m t).ink.throttle then throttled s.env (warned s.env m t) t else warned s.env m t)) := by
  subst hm he
  change execThermalSample t s = _
  exact runLive_live h _

theorem exec_thermalSample_throttled (ht : 105 ≤ t.toInt) (hn : (warned s.env m t).ink.throttle = false) :
    exec (.thermalSample t) s = .next (s.withM (throttled s.env (warned s.env m t) t)) := by
  rw [exec_thermalSample h he hm, hn, decide_eq_true ht]
  rfl

theorem exec_thermalSample_unthrottled (hn : t.toInt < 105 ∨ (warned s.env m t).ink.throttle = true) :
    exec (.thermalSample t) s = .next (s.withM (warned s.env m t)) := by
  rw [exec_thermalSample h he hm]
  rcases hn with ht | hn
  · rw [decide_eq_false (not_le.mpr ht)]; rfl
  · rw [hn, Bool.not_true, Bool.and_false]; rfl

end

section
variable {c : Nat} {e m : M} (hc : s.m.ink.thermCeil = some c) (he : e = elapseTo s.env s.m (s.m.ink.throttleTick + 50000))
  (hm : m = e.setInk fun i => { i with throttleTick := e.now })
include hc he hm

/-- A step of the throttle by the temperature last sampled (R732). -/
theorem exec_throttleStep : exec .throttleStep s = .next (s.withM (
    if 105 ≤ m.ink.temp.toInt then m.setInk fun i => { i with thermCeil := some (if c ≤ 240 then c else max (c - 20) 240) }
    else if m.ink.temp.toInt < 103 then
      (if guardCeil s.env m ≤ c + 20 then m.setInk fun i => { i with thermCeil := none, throttle := false }
       else m.setInk fun i => { i with thermCeil := some (c + 20) })
    else m)) := by
  subst hm he
  change execThrottleStep s = _
  exact run_next h (by simp only [hc])

end

theorem exec_thermalTrip {t : BitVec 8} (ht : 115 ≤ t.toInt) :
    exec (.thermalTrip t) s = .next (s.withM
      (((log s.env (s.m.setInk fun i => { i with temp := t }) 0x0805 31 (t.signExtend 32) 0 0).setPins fun p => { p with
        thermtrip := true, ready := false }).setBoot fun b => { b with txStopped := true })) := by
  change execThermalTrip t s = _
  exact run_next h (if_neg (not_lt.mpr ht))

end

/-- Settles O40. -/
theorem energyAndHeat : Obligations.EnergyAndHeat := by
  refine ⟨fun s h => ⟨fun _ _ _ _ => exec_inkSample h, fun _ => exec_inkSensorFault h, fun _ _ _ => exec_ceilBucketRefill h,
      fun _ => exec_ceilUnmet h⟩,
    fun s h => ⟨fun t e m n he hm => ⟨fun ht => ?cold, fun hlo hhi => ?between, fun ht hn => ?hot⟩,
      fun c e m hc he hm => ?step, fun _ => exec_thermalTrip h⟩⟩
  case cold =>
    have hw : warned s.env m t = m.setInk fun i => { i with warn := false } := by unfold warned; rw [if_neg (by omega), if_pos ht]
    exact hw ▸ exec_thermalSample_unthrottled h he hm (.inl (by omega))
  case between =>
    have hw : warned s.env m t = m := by unfold warned; rw [if_neg (by omega), if_neg (by omega)]
    exact (exec_thermalSample_unthrottled h he hm (.inl (by omega))).trans (by rw [hw])
  case hot =>
    obtain rfl : n = warned s.env m t := hn.trans (if_pos ht).symm
    exact ⟨exec_thermalSample_unthrottled h he hm, exec_thermalSample_throttled h he hm⟩
  case step =>
    have hs := exec_throttleStep h hc he hm
    refine ⟨fun ht => ?_, fun ht hg => ?_, fun ht hg => ?_, fun hlo hhi => ?_⟩
    · rw [hs, if_pos ht]
    · rw [hs, if_neg (by omega), if_pos ht, if_pos hg]
    · rw [hs, if_neg (by omega), if_pos ht, if_neg (by omega)]
    · rw [hs, if_neg (by omega), if_neg (by omega)]

end Sys2Proof.Machine
end

section
/-!
O41. The chunks of the background tasks (R528, R715, R718). A MIRROR_CATCHUP_CHUNK on a slice whose island runs also takes an oracle
value, the tag lookups that this slice has made; the state that the statement gives has taken none.
-/

namespace Sys2Proof.Machine

open Sys2Proof

/-! ### A chunk of the mirror's catch-up -/

theorem exec_mirrorCatchupChunk {s : State} {x : Fin 16} {m n : M} (lines : List Line) (h : Live s) (hp : s.m.twin.st = .paired)
    (hc : s.m.twin.catchup.getLsbD x = true) (hd : sliceDead s.m x = false) (hq : takeQuota s.m 1 = some m)
    (hn : n = ((lines.take 512).filter fun l => (catchupLeft s.env m x).contains l).foldl sendWhole (openLookups s.env m x))
    (hl : catchupLeft s.env n x = []) :
    exec (.mirrorCatchupChunk x lines) s = .next (s.after
      (n.setTwin fun t => { t with catchup := t.catchup &&& ~~~((1 : BitVec 16) <<< x.val) })) := by
  subst hn
  change execMirrorCatchupChunk x lines s = _
  refine act_next h ((if_neg (by simp [hp, hc, hd, -BitVec.getLsbD_eq_getElem])).trans ?_)
  simp only [hq]
  exact if_pos (List.isEmpty_iff.mpr hl)

/-! ### The counterexample -/

/-- A running device of a pair whose first slice has nothing left to catch up, and one chunk of quota. -/
def catchesUp : State :=
  { State.reset with m := { State.reset.m with
    pins := { Pins.reset with coldRstN := true }
    twin := { State.reset.m.twin with st := .paired, catchup := 1 }
    ink := { State.reset.m.ink with quota := [0, 1, 0, 0, 0, 0] } } }

/-- The machine of `catchesUp` with the chunk taken from its quota. -/
def catchesUpTaken : M := catchesUp.m.setInk fun i => { i with used := i.used.set 1 1 }

/-- The end of the catch-up of the first slice. -/
def caughtUp (m : M) : M := m.setTwin fun t => { t with catchup := t.catchup &&& ~~~((1 : BitVec 16) <<< 0) }

theorem catchesUp_live : Live catchesUp := ⟨by decide, by decide⟩
theorem catchesUp_quota : takeQuota catchesUp.m 1 = some catchesUpTaken := by rfl

/-- `catchesUpTaken` with the tag lookups of its first slice, an oracle value, in that slice's counter 9. -/
def catchesUpCounted : M := { catchesUpTaken with free := 1 }.setCtr 0 9 (BitVec.ofNat 48 (0 + Config.activity 0))

/-- The lookups may overflow the counter, which its overflow register then shows. -/
theorem catchesUp_openLookups : openLookups catchesUp.env catchesUpTaken 0 = (if 2 ^ 48 ≤ 0 + Config.activity 0
    then wr catchesUp.env catchesUpCounted 0x4004E (rd catchesUp.env catchesUpCounted 0x4004E ||| ((1 : Word) <<< 9))
    else catchesUpCounted) := rfl

theorem catchupLeft_of_noTags {e : Env} {m : M} {x : Nat} (h : m.coh.tags = []) : catchupLeft e m x = [] := by
  simp [catchupLeft, tagList, h]
theorem catchesUp_tags : (openLookups catchesUp.env catchesUpTaken 0).coh.tags = [] := by
  rw [catchesUp_openLookups]
  split <;> rfl

/-- Whatever the lookups are, one oracle value is taken. -/
theorem catchesUp_looked : (catchesUp.after (caughtUp (openLookups catchesUp.env catchesUpTaken 0))).m.free = 1 := by
  rw [catchesUp_openLookups]
  split
  · decide +kernel
  · decide +kernel
theorem catchesUp_statement_unlooked : (catchesUp.after (caughtUp catchesUpTaken)).m.free = 0 := by decide +kernel

/-- Refutes O41: the chunk takes an oracle value for the tag lookups of its slice, as the island of that slice runs; the state that the
statement gives has taken none. -/
theorem not_epochsAndChunks : ¬ Obligations.EpochsAndChunks := by
  intro h
  obtain ⟨-, hcatchup, -⟩ := h.2 catchesUp 0 [] catchesUpTaken catchesUp_live
  have hsays := (hcatchup catchesUpTaken rfl (by decide) (by decide) catchesUp_quota rfl).2 (by decide)
  have hdoes := exec_mirrorCatchupChunk (x := 0) [] catchesUp_live rfl (by decide) (by decide) catchesUp_quota rfl
    (catchupLeft_of_noTags catchesUp_tags)
  have heq := congrArg (fun t : State => t.m.free) (Host.Outcome.next.inj (hdoes.symm.trans hsays))
  exact absurd (catchesUp_looked.symm.trans (heq.trans catchesUp_statement_unlooked)) (by decide)

end Sys2Proof.Machine
end

section
/-!
O42. CTL messages on an ACTIVE CKL (R505, R510 to R516, R551, R552), and the mirror messages to the holder (R524, R527, R531).
-/

namespace Sys2Proof.Machine

open Sys2Proof

/-! ### CTL messages -/

theorem reported_setTail (m : M) (r : Nat) (x : BitVec 16) : Reported m (m.setTail r x) := rfl
theorem reported_passRing (m : M) (r : Nat) (x : BitVec 512) : Reported m (passRing m r x) := by
  unfold passRing
  exact ((Reported.foldl (fun m _ => reported_putRing m ..) _ m).trans (reported_setTail ..)).trans (reported_setHead ..)
theorem reported_passOpen (m : M) (r : Nat) : Reported m (passOpen m r) :=
  (reported_free m (m.free + 16)).trans (reported_passRing ..)

/-- Taking a CTL message leaves the pair as it was. -/
theorem ctlTaken_twin {s : State} {n : Nat} {m : M} (hm : m = passOpen (s.received .ckl 0 n) 14) : m.twin = s.m.twin := by
  rw [hm, (reported_passOpen ..).twin]
  rfl

/-- A CTL message that the firmware takes from ring 14 leaves what its handler makes of the machine. -/
theorem ctlRx_next {s : State} {n : Nat} {f : Env → M → M} {m m' : M} (h : Live s) (hv : s.fuse.variant.ckl = true)
    (hfw : s.m.jpc.fw = .running) (hb : Buffered s .ckl 0 n) (hm : m = passOpen (s.received .ckl 0 n) 14) (hf : f s.env m = m') :
    ctlRx s n f = .next (s.after m') := by
  subst hm
  refine act_next h ((if_neg ?_).trans ((delivered_of_buffered hb ..).trans hf))
  simp [State.env, hv, hb.1, hfw]

section
variable {s : State} {m : M} (h : Live s) (hv : s.fuse.variant.ckl = true) (hfw : s.m.jpc.fw = .running)
include h hv hfw

theorem exec_pairHelloRx {x : Hello} (hb : Buffered s .ckl 0 1) (hm : m = passOpen (s.received .ckl 0 1) 14) :
    exec (.pairHelloRx x) s = .next (s.after (checkHellos s.env (m.setTwin fun t => { t with hello := some x }))) := by
  change execPairHelloRx x s = _
  exact ctlRx_next h hv hfw hb hm rfl

variable (hb : Buffered s .ckl 0 0) (hm : m = passOpen (s.received .ckl 0 0) 14)
include hb hm

theorem exec_pairRefuseRx (reason : BitVec 4) :
    exec (.pairRefuseRx reason) s = .next (s.after (log s.env m 0x0602 srcCkl (reason.setWidth 32) 0 0)) := by
  subst hm
  change execPairRefuseRx reason s = _
  refine act_next h ((if_neg ?_).trans ((if_pos (beq_iff_eq.mpr hb.1)).trans (delivered_of_buffered hb ..)))
  simp [State.env, hv, hfw]

theorem exec_shedDoneRx (hst : s.m.twin.st = .shed) (q : Tag) :
    exec (.shedDoneRx q) s = .next (s.after (tryCommit s.env (m.setTwin fun t => { t with shedSeen := true }))) := by
  change execShedDoneRx q s = _
  exact ctlRx_next h hv hfw hb hm (if_pos (by simp [ctlTaken_twin hm, hst]))

theorem exec_pairCommitRx (hst : s.m.twin.st = .shed) (hsen : s.m.twin.senior = false) (q : Tag) :
    exec (.pairCommitRx q) s = .next (s.after (enterPaired s.env m)) := by
  change execPairCommitRx q s = _
  refine ctlRx_next h hv hfw hb hm (if_pos (by simp [ctlTaken_twin hm, hst, hsen]))

theorem exec_releaseHalfRx (hst : s.m.twin.st = .paired) (q : Tag) :
    exec (.releaseHalfRx q) s = .next (s.after (takeHalf s.env m)) := by
  change execReleaseHalfRx q s = _
  exact ctlRx_next h hv hfw hb hm (if_pos (by simp [ctlTaken_twin hm, hst]))

theorem exec_releaseAckRx (hst : s.m.twin.st = .releasing) (hshed : s.m.twin.shedSent = true) (q : Tag) :
    exec (.releaseAckRx q) s = .next (s.after
      (finishCmd s.env ((depose s.env m).setMir fun r => { r with relCmd := 0 }) m.mir.relCmd 0 0)) := by
  change execReleaseAckRx q s = _
  refine ctlRx_next h hv hfw hb hm (if_pos (by simp [ctlTaken_twin hm, hst, hshed]))

end

/-! ### Mirror messages to the holder -/

/-- A message of the CKL whose buffers are at hand leaves what its handler makes of the machine. -/
theorem cklRx_next {s : State} {c n : Nat} {f : Env → M → M} {m : M} (h : Live s) (hv : s.fuse.variant.ckl = true)
    (hb : Buffered s .ckl c n) (hf : f s.env (s.received .ckl c n) = m) : cklRx s c n f = .next (s.after m) := by
  refine act_next h ((if_neg ?_).trans ((delivered_of_buffered hb ..).trans hf))
  simp [State.env, hv, hb.1]

theorem toSlice_alive {e : Env} {m : M} {l : Line} (hd : sliceDead m (sliceOf l) = false) (f : M → M) :
    toSlice e m l f = f (wakeIsland e m (sliceOf l)) := if_neg (Bool.eq_false_iff.mp hd)

section
variable {s : State} {m : M} {line : Line} (h : Live s) (hv : s.fuse.variant.ckl = true) (hd : sliceDead m (sliceOf line) = false)
include h hv hd

theorem exec_mirWriteRx {tag : Tag} {poison full : Bool} {mem : MPort} {mask : Mask} {data : Data} {k : Nat}
    (hk : k = (if full then 8 else 1 + ((List.range 8).filter fun k => mask.extractLsb' (16 * k) 16 != 0).length))
    (hb : Buffered s .ckl 1 k) (hm : m = mirIn s.env (s.received .ckl 1 k) true) :
    exec (.mirWriteRx tag poison mem full line mask data) s = .next (s.after
      (holdMirror s.env (wakeIsland s.env m (sliceOf line)) ⟨tag, poison, mem, full, line, mask, data⟩)) := by
  subst hm hk
  change execMirWriteRx tag poison mem full line mask data s = _
  exact cklRx_next h hv hb (toSlice_alive hd _)

variable (hb : Buffered s .ckl 1 0)
include hb

theorem exec_mirReleaseRx {t : M} (hm : m = mirIn s.env (s.received .ckl 1 0) false)
    (ht : t = tagCheck s.env (wakeIsland s.env m (sliceOf line)) line) :
    exec (.mirReleaseRx line) s = .next (s.after (if (findTag s.env t line true).isSome then setSector s.env t line true 0 else t)) := by
  subst ht hm
  change execMirReleaseRx line s = _
  exact cklRx_next h hv hb (toSlice_alive hd _)

theorem exec_mirFetchRx (hm : m = mirIn s.env (s.received .ckl 1 0) true) (tag : Tag) :
    exec (.mirFetchRx tag line) s = .next (s.after
      (fetchMirror s.env (tagCheck s.env (wakeIsland s.env m (sliceOf line)) line) tag line)) := by
  subst hm
  change execMirFetchRx tag line s = _
  exact cklRx_next h hv hb (toSlice_alive hd _)

end

/-- Settles O42. -/
theorem pairMessages : Obligations.PairMessages := by
  refine ⟨fun s x q reason m h hv hfw => ⟨exec_pairHelloRx h hv hfw, fun hb hm => ?ctl⟩,
    fun s tag poison full mem line mask data h hv => ⟨fun m k hk hb hm hd => exec_mirWriteRx h hv hd hk hb hm,
      fun m t hb hm hd => exec_mirReleaseRx h hv hd hb hm, fun m hb hm hd => exec_mirFetchRx h hv hd hb hm tag⟩⟩
  case ctl =>
    exact ⟨exec_pairRefuseRx h hv hfw hb hm reason, fun hst => exec_shedDoneRx h hv hfw hb hm hst q,
      fun hst hsen => exec_pairCommitRx h hv hfw hb hm hst hsen q, fun hst => exec_releaseHalfRx h hv hfw hb hm hst q,
      fun hst hshed => exec_releaseAckRx h hv hfw hb hm hst hshed q⟩

end Sys2Proof.Machine
end

section
/-!
O43 and O44. The twin's answers to the primary (R60, R504, R525, R531, R742), and the timers of the pair and its beacons (R398, R399,
R513, R516, R532 to R534, R542, R544).
-/

namespace Sys2Proof.Machine

open Sys2Proof

/-! ### The twin's answers -/

/-- The machine with a message of answer class taken from the CKL and counted. -/
def answerTaken (s : State) (slots : Nat) : M := count s.env (s.received .ckl 2 slots) 29 7 1 none

/-- An answer that names an outstanding message on a slice that works leaves what its handler makes of the machine. -/
theorem ackRx_next {s : State} {tag : Tag} {opcode slots : Nat} {f : Env → M → MirOut → M} {n m m' : M} {o : MirOut} (h : Live s)
    (hv : s.fuse.variant.ckl = true) (hb : Buffered s .ckl 2 slots) (ht : takeAnswer (answerTaken s slots) tag = some (n, o))
    (hd : sliceDead n (sliceOf o.line) = false) (hm : m = wakeIsland s.env n (sliceOf o.line)) (hf : f s.env m o = m') :
    ackRx s tag opcode slots f = .next (s.after m') := by
  unfold answerTaken at ht
  subst hm
  refine cklRx_next h hv hb ?_
  simp only [ht]
  exact (if_neg (Bool.eq_false_iff.mp hd)).trans hf

/-- An answer that names no outstanding message is discarded as a violation. -/
theorem ackRx_stray {s : State} {tag : Tag} {slots : Nat} (h : Live s) (hv : s.fuse.variant.ckl = true) (hb : Buffered s .ckl 2 slots)
    (ht : takeAnswer (answerTaken s slots) tag = none) (opcode : Nat) (f : Env → M → MirOut → M) :
    ackRx s tag opcode slots f = .next (s.after (violate s.env (answerTaken s slots) .ckl 0x14 none tag opcode true true)) := by
  unfold answerTaken at ht ⊢
  refine cklRx_next h hv hb ?_
  simp only [ht]

section
variable {s : State} {tag : Tag} {n m : M} {o : MirOut} (h : Live s) (hv : s.fuse.variant.ckl = true)
  (hd : sliceDead n (sliceOf o.line) = false) (hm : m = wakeIsland s.env n (sliceOf o.line))
include h hv hd hm

section
variable (hb : Buffered s .ckl 2 0) (ht : takeAnswer (answerTaken s 0) tag = some (n, o))
include hb ht

theorem exec_mirAckRx_write (hf : o.fetch = false) : exec (.mirAckRx tag) s = .next (s.after (mirAcked s.env m o)) := by
  change execMirAckRx tag s = _
  exact ackRx_next h hv hb ht hd hm (if_neg (Bool.eq_false_iff.mp hf))

theorem exec_mirAckRx_fetch (hf : o.fetch = true) : exec (.mirAckRx tag) s = .next (s.after (fetchAnswerLost s.env m o.line)) := by
  change execMirAckRx tag s = _
  exact ackRx_next h hv hb ht hd hm (if_pos hf)

theorem exec_mirNakRx {reason : BitVec 2} {t : M} (hf : o.fetch = false) (htot : t = bump s.env m (rMirNak + reason.toNat) 1) :
    exec (.mirNakRx tag reason) s = .next (s.after (notAcked s.env (count s.env t (sliceOf o.line) 0x14 1 none) o.line o.mtag false
      fun m => nakAction s.env m o.line reason.toNat)) := by
  subst htot
  change execMirNakRx tag reason s = _
  exact ackRx_next h hv hb ht hd hm (if_neg (Bool.eq_false_iff.mp hf))

theorem exec_mirLostRx_write {line : Line} (h0 : tag ≠ 0) (hf : o.fetch = false) :
    exec (.mirLostRx tag line) s = .next (s.after (notAcked s.env (bump s.env m rMirLost 1) o.line o.mtag true fun m =>
      sendWhole (if sectorOf s.env m o.line = 3 then setSector s.env m o.line false 2 else m) o.line)) := by
  change execMirLostRx tag line s = _
  exact (if_neg (mt beq_iff_eq.mp h0)).trans (ackRx_next h hv hb ht hd hm (if_neg (Bool.eq_false_iff.mp hf)))

theorem exec_mirLostRx_fetch {line : Line} (h0 : tag ≠ 0) (hf : o.fetch = true) :
    exec (.mirLostRx tag line) s = .next (s.after (fetchAnswerLost s.env (bump s.env m rMirLost 1) o.line)) := by
  change execMirLostRx tag line s = _
  exact (if_neg (mt beq_iff_eq.mp h0)).trans (ackRx_next h hv hb ht hd hm (if_pos hf))

end

theorem exec_mirDataRx {poison p : Bool} {data d : Data} {t : Txn} (hb : Buffered s .ckl 2 8)
    (ht : takeAnswer (answerTaken s 8) tag = some (n, o)) (hf : o.fetch = true) (hx : m.txnOf o.line = some t)
    (hp : t.phase = .mirFetch) (h0 : sectorOf s.env m o.line = 0) (hg : overGalley m o.line data poison = (d, p)) :
    exec (.mirDataRx tag poison data) s = .next (s.after (dataReady s.env m o.line d p)) := by
  change execMirDataRx tag poison data s = _
  refine ackRx_next h hv hb ht hd hm ?_
  simp only [hf, hx, hp, h0, beq_self_eq_true, Bool.not_true, Bool.false_eq_true, if_false, if_true]
  cases hw : findTag s.env m o.line false <;> simp only [hg]

end

/-- Settles O43. -/
theorem mirrorPrimary : Obligations.MirrorPrimary := by
  refine fun s tag poison data line reason m n o h hv h0 => ⟨fun slots _ hb ht hd hm => ⟨?ack, ?fetchAck, ?nak, ?lost, ?fetchLost, ?data⟩,
    ?stray⟩
  case stray => intro hb ht; change execMirAckRx tag s = _; exact ackRx_stray h hv hb ht ..
  case ack => rintro rfl hf; exact exec_mirAckRx_write h hv hd hm hb ht hf
  case fetchAck => rintro rfl hf; exact exec_mirAckRx_fetch h hv hd hm hb ht hf
  case nak => rintro rfl hf t htot; exact exec_mirNakRx h hv hd hm hb ht hf htot
  case lost => rintro rfl hf; exact exec_mirLostRx_write h hv hd hm hb ht h0 hf
  case fetchLost => rintro rfl hf; exact exec_mirLostRx_fetch h hv hd hm hb ht h0 hf
  case data => rintro t d p rfl hf hx hp hs hg; exact exec_mirDataRx h hv hd hm hb ht hf hx hp hs hg

/-! ### The timers of the pair -/

theorem elapseTo_twin (e : Env) (m : M) (t : Nat) : (elapseTo e m t).twin = m.twin := by
  obtain ⟨c, g, f, d, hs⟩ := elapse_shape e m (t - m.now)
  unfold elapseTo
  rw [hs]

section
variable {s : State} (h : Live s)
include h

theorem exec_mirNakBusyRetry {line : Line} {x : Line × Nat} (hx : s.m.mir.busyRetry.find? (fun x => x.1 == line) = some x) :
    exec (.mirNakBusyRetry line) s = .next (s.after ((elapseTo s.env s.m (x.2 + 50)).setMir fun r => { r with
      busyRetry := r.busyRetry.erase x, resend := if r.resend.contains line then r.resend else r.resend ++ [line] })) := by
  change execMirNakBusyRetry line s = _
  exact act_next h (by simp only [hx])

theorem exec_cklLost (hst : s.m.twin.st = .paired ∨ s.m.twin.st = .releasing) (hl : (s.m.link .ckl).st ≠ .active) :
    exec .cklLost s = .next (s.after (declareLost s.env (elapseTo s.env s.m ((s.m.link .ckl).inactive + 10000)))) := by
  change execCklLost s = _
  refine act_next h (if_neg ?_)
  rcases hst with hst | hst <;> simp [hst, hl]

theorem exec_beaconLost {t : Nat} {m : M} (hst : s.m.twin.st = .paired) (ht : s.m.mir.heard = some t)
    (hm : m = elapseTo s.env s.m (t + 3000)) (hb : s.m.twin.beaconLost = false) :
    exec .beaconLost s = .next (s.after
      (log s.env (m.setTwin fun t => { t with beaconLost := true }) 0x0605 srcCkl (BitVec.ofNat 32 m.twin.st.n) 0 0)) := by
  subst hm
  change execBeaconLost s = _
  refine act_next h ?_
  simp only [ht, hst, beq_self_eq_true, Bool.true_or, if_true, elapseTo_twin, hb, Bool.false_eq_true, if_false]

theorem exec_suspectEval (hst : s.m.twin.st = .suspect) :
    exec .suspectEval s = .next (s.after (suspectEval s.env (elapse s.env s.m 1))) := by
  change execSuspectEval s = _
  exact act_next h (if_pos (beq_iff_eq.mpr hst))

theorem exec_isolatedPortActive {p : HPort} (hst : s.m.twin.st = .isolated) (hp : portUp s.m p = true)
    (hi : s.m.mir.isolatedSince = none) :
    exec (.isolatedPortActive p) s = .next (s.after (s.m.setMir fun r => { r with isolatedSince := some s.m.now })) := by
  change execIsolatedPortActive p s = _
  exact act_next h (if_pos (by simp [hst, hp, hi]))

theorem exec_isolatedNoBeacon {t : Nat} (ht : s.m.mir.isolatedSince = some t) (hst : s.m.twin.st = .isolated)
    (hp : portUp s.m .hpa = true ∨ portUp s.m .hpb = true) :
    exec .isolatedNoBeacon s = .next (s.after (adopt s.env (elapseTo s.env s.m (t + 3000)))) := by
  change execIsolatedNoBeacon s = _
  refine act_next h ?_
  simp only [ht]
  exact if_pos (by simp [hst, hp])

theorem exec_drainDoneOwn (hst : s.m.twin.st = .split) (hd : drainClean s.m = true) :
    exec .drainDoneOwn s = .next (s.after (s.m.setTwin fun t => { t with drainOwn := true })) := by
  change execDrainDoneOwn s = _
  exact act_next h (if_pos (by simp [hst, hd]))

theorem exec_shedPhase2 (hp : s.m.twin.shedPhase = 1) (hd : shedDirty s.m = false) :
    exec .shedPhase2 s = .next (s.after
      (pumpShed s.env ((flushLines s.env s.m (shedding s.m) 16).setTwin fun t => { t with shedPhase := 2 }))) := by
  change execShedPhase2 s = _
  exact act_next h (if_neg (by simp [hp, hd]))

theorem exec_pairAttemptLimit (hst : s.m.twin.st = .hello) :
    exec .pairAttemptLimit s = .next (s.after
      (abandonAttempt s.env (elapseTo s.env s.m (s.m.twin.attemptStart + s.m.twin.attemptLimit)) 3)) := by
  change execPairAttemptLimit s = _
  exact act_next h (if_pos (beq_iff_eq.mpr hst))

theorem exec_sweepProgress (x : Fin 16) (k : SweepKind) :
    exec (.sweepProgress x k) s = .next (s.after
      (s.m.setCoh fun c => { c with sweeps := c.sweeps.filter fun y => y != (x.val, k) })) := by
  change execSweepProgress x k s = _
  exact act_live h _

/-! ### Beacons -/

theorem exec_beaconSend {m : M} (hv : s.fuse.variant.ckl = true)
    (hdue : s.m.twin.solo = false ∨ s.m.twin.st = .hello ∨ s.m.twin.st = .shed ∨ s.m.twin.st = .adopted ∨ s.m.twin.st = .deposed)
    (hm : m = [Lnk.hpa, .hpb].foldl (fun m l => if m.txOn && (m.link l).txq.isEmpty && (m.link l).canSend [.beacon (myBeacon s.env s.m)]
      then transmit s.env m l [.beacon (myBeacon s.env s.m)] else m) s.m) :
    exec .beaconSend s = .next (s.after (m.setMir fun r => { r with beaconSeq := r.beaconSeq + 1 })) := by
  subst hm
  change execBeaconSend s = _
  refine act_next h (if_neg ?_)
  have hwanted : (!s.m.twin.solo || s.m.twin.st == .hello || s.m.twin.st == .shed || s.m.twin.st == .adopted
      || s.m.twin.st == .deposed) = true := by simpa [or_assoc] using hdue
  simp [hwanted, State.env, hv]

end

/-- Settles O44. -/
theorem pairTimersAndBeacons : Obligations.PairTimersAndBeacons :=
  ⟨fun _ h => ⟨fun _ _ => exec_mirNakBusyRetry h, exec_cklLost h, fun _ _ => exec_beaconLost h, exec_suspectEval h,
      fun _ => exec_isolatedPortActive h, fun _ => exec_isolatedNoBeacon h, exec_drainDoneOwn h, exec_shedPhase2 h,
      exec_pairAttemptLimit h, exec_sweepProgress h⟩,
    fun _ _ h => exec_beaconSend h⟩

end Sys2Proof.Machine
end

section
/-!
O45. The work of proof and patrol (R734 to R756).
-/

namespace Sys2Proof.Machine

open Sys2Proof

/-! ### A step of an item -/

/-- A run whose step the planner may admit. -/
structure Admissible (r : Run) : Prop where
  running : r.state = 1
  unready : runReady r = false
  settled : r.evacuating = false

theorem Admissible.open_ {r : Run} (h : Admissible r) : ¬ (r.state != 1 || r.evacuating || runReady r) = true := by
  simp [h.running, h.unready, h.settled]

/-- An item whose block is emptied before its test (R743): the state once its evacuation has gone as far as it can at once. -/
def evacuated (e : Env) (m : M) (r : Run) : M :=
  let n := (proofOrder m r r.step).updRun r.id fun r => { r with evacuating := true }
  goOn e (if r.item = 3 then n else evacuate e n (r.unit / 16) (r.unit % 16) r.step) { r with evacuating := true }

section
variable {e : Env} {m m' : M} {r : Run} (hr : Admissible r) (f : StepFacts)
include hr

theorem proofStep_window (hw : r.window = true) : proofStep e m r f = testStep e m r f := by
  unfold proofStep
  rw [if_neg hr.open_, if_pos hw]

variable (hw : r.window = false) (hs : r.stopping = false) (hq : takeQuota m 3 = some m')
include hw hs hq

theorem proofStep_direct (hi : 4 ≤ r.item.toNat) : proofStep e m r f = testStep e (proofOrder m' r r.step) r f := by
  unfold proofStep
  rw [if_neg hr.open_, hw, hs, hq]
  exact if_pos hi

theorem proofStep_evacuating {q : Run} (hi : r.item.toNat < 4) (hrun : (evacuated e m' r).runOf r.id = some q) :
    proofStep e m r f = if q.window then testStep e (evacuated e m' r) q f else evacuated e m' r := by
  simp only [evacuated] at hrun ⊢
  unfold proofStep
  rw [if_neg hr.open_, if_neg (Bool.eq_false_iff.mp hw), if_neg (Bool.eq_false_iff.mp hs), hq]
  simp only [if_neg (Nat.not_le.mpr hi), beq_iff_eq, hrun]

end

section
variable {s : State} (h : Live s)
include h

theorem exec_proofStep {id : BitVec 16} {r : Run} {f : StepFacts} (hr : s.m.runOf id = some r) (hfw : s.m.jpc.fw = .running) :
    exec (.proofStep id f) s = .next (s.after (proofStep s.env s.m r f)) := by
  change execProofStep id f s = _
  exact act_next h (by simp only [hr, hfw, beq_self_eq_true, if_true])

/-! ### Evacuation and patrol -/

theorem exec_evacComplete (x : Fin 16) (b : Nat) :
    exec (.evacComplete x b) s = .next (s.after
      ((s.m.proof.runs.filter fun r => r.evacuating && r.unit / 16 == x.val && r.step == b).foldl (goOn s.env) s.m)) := by
  change execEvacComplete x b s = _
  exact act_live h _

theorem exec_patrolChunk {da : Bool} {reads : List PatrolRead} {m n : M} (hfw : s.m.jpc.fw = .running)
    (hd : patrolDue s.env s.m da = true) (hq : patrolQuota s.env s.m da = some m)
    (hn : n = passRing m 18 (entryOf16 [(0, 1 - bit da), (4, (m.pass da).done), (8, 1)])) :
    exec (.patrolChunk da reads) s = .next (s.after (chunkDone s.env
      (if da then patrolData s.env n (m.pass da).done reads else patrolTag s.env n (m.pass da).done) da)) := by
  subst hn
  change execPatrolChunk da reads s = _
  refine act_next h ((if_neg (by simp [hfw, hd])).trans ?_)
  simp only [hq]

theorem exec_patrolLate {da : Bool} {m : M} (hon : patrolOn s.env s.m da = true) (hl : (s.m.pass da).late = false)
    (hm : m = elapseTo s.env s.m ((s.m.pass da).start + patrolTicks s.cfg)) :
    exec (.patrolLate da) s = .next (s.after (log s.env (m.setPass da { s.m.pass da with late := true }) 0x0904 srcJpc
      (BitVec.ofNat 32 (1 - bit da)) 0 0)) := by
  subst hm
  change execPatrolLate da s = _
  exact act_next h (if_neg (by simp [hon, hl]))

end

/-- Settles O45. -/
theorem proofAndPatrolWork : Obligations.ProofAndPatrolWork := by
  refine fun s h => ⟨fun id r f hr hfw hst hrd hev => ?step, exec_evacComplete h, fun da reads m hfw hd hq n => exec_patrolChunk h hfw hd hq,
    fun da hon hl m => exec_patrolLate h hon hl⟩
  case step =>
    have ha : Admissible r := ⟨hst, hrd, hev⟩
    rw [exec_proofStep h hr hfw]
    refine ⟨fun hw => by rw [proofStep_window ha f hw], fun m hw hs hq => ⟨fun hi => by rw [proofStep_direct ha f hw hs hq hi],
      fun n hi hn t ht => ?_⟩⟩
    obtain rfl : t = evacuated s.env m r := by rw [ht, hn]; rfl
    refine ⟨fun q hrun hwin => ?_, fun q hrun hwin => ?_⟩
    · rw [proofStep_evacuating ha f hw hs hq hi hrun, if_pos hwin]
    · rw [proofStep_evacuating ha f hw hs hq hi hrun, if_neg (Bool.eq_false_iff.mp hwin)]

end Sys2Proof.Machine
end

section
/-!
Register accesses. What an access that reaches its register leaves, given as an equation about the read or the write of that register.
-/

namespace Sys2Proof.Machine

open Sys2Proof

section
variable {s : State} {a : Acc} {w : Nat} {m n : M} {v : Word}

theorem read_next {r : Word} (h : Reaches s a w false) (hm : m = s.woken w) (hr : readDirect s.env m a w = (n, r)) :
    accessRow s a (regAddr w) false v = .next (s.applied (returning n r)) := by
  subst hm
  rw [accessRow_reached h, hr]
  rfl

theorem write_next (h : Reaches s a w true) (hm : m = s.woken w) (hw : writeReg s.env m a w v = n) :
    accessRow s a (regAddr w) true v = .next (s.applied (returning n 0)) := by
  subst hm
  rw [accessRow_reached h, hw]
  rfl

theorem write_finished (h : Reaches s a w true) (hm : m = s.woken w) (hw : writeReg s.env m a w v = n) :
    writeRow s a (regAddr w) v = .next (s.applied (fin s.env (returning n 0))) := by
  subst hm
  rw [writeRow_reached h, hw]

end

/-! ### Which function writes a register -/

section
variable {w : Nat} (hg : isRwg w = false) (hc : ctrReg w = none) (e : Env) (m : M) (a : Acc) (v : Word)
include hg hc

theorem writeReg_central (hw : w < 0x10000) (hb : w / 0x1000 ≠ 0xA) : writeReg e m a w v = writeCentral e m a w v := by
  simp only [writeReg, hg, hc, hw, hb, ne_eq, not_false_eq_true, and_self, Bool.false_and, Bool.false_eq_true, if_false, if_true]

theorem writeReg_unit (hw : ¬ (w < 0x10000 ∧ w / 0x1000 ≠ 0xA)) : writeReg e m a w v = writeUnit e m a w v := by
  simp only [writeReg, hg, hc, hw, Bool.false_and, Bool.false_eq_true, if_false]

end

/-- A register that only the firmware and the hosts may write keeps its value for JTAG. -/
theorem writeReg_jtag {w : Nat} {a : Acc} (hg : isRwg w = true) (ha : a.path = .jtag) (e : Env) (m : M) (v : Word) :
    writeReg e m a w v = m := by
  simp only [writeReg, hg, ha, beq_self_eq_true, Bool.and_self, if_true]
/-- The firmware's own write of a guarded register is refused under guard 2 (R605). -/
theorem writeReg_guarded {w : Nat} {a : Acc} (hg : isRwg w = true) (ha : a.path = .jpc) (e : Env) (m : M) (v : Word) :
    writeReg e m a w v = guardBlock e m 2 5 := if_neg (by simp [ha]) |>.trans (if_pos (by simp [hg, ha]))
theorem writeReg_rwg {w : Nat} {a : Acc} (hj : a.path ≠ .jtag) (hf : a.path ≠ .jpc) (hc : ctrReg w = none) (hw : w < 0x10000)
    (hb : w / 0x1000 ≠ 0xA) (e : Env) (m : M) (v : Word) : writeReg e m a w v = writeCentral e m a w v := by
  simp only [writeReg, hc, hw, hb, ne_eq, not_false_eq_true, and_self, beq_eq_false_iff_ne.mpr hj, beq_eq_false_iff_ne.mpr hf,
    Bool.and_false, Bool.false_eq_true, if_false, if_true]

end Sys2Proof.Machine
end

section
/-!
O46. The quoins (R839 to R850).
-/

namespace Sys2Proof.Machine

open Sys2Proof

theorem readDirect_quoin (e : Env) (m : M) (a : Acc) (q : Fin 64) : readDirect e m a (0x3000 + q) = readQuoin m a q := by
  have hb : (0x3000 + q.val) / 0x1000 = 3 := by omega
  have hk : (0x3000 + q.val) % 0x1000 = q := by omega
  simp only [readDirect, hb, hk, if_true]

theorem quoin_unguarded : ∀ q : Fin 64, isRwg (0x3000 + q) = false ∧ ctrReg (0x3000 + q) = none := by decide
theorem writeReg_quoin (e : Env) (m : M) (a : Acc) (q : Fin 64) (v : Word) :
    writeReg e m a (0x3000 + q) v = writeQuoin m a q v := by
  have hb : (0x3000 + q.val) / 0x1000 = 3 := by omega
  have hk : (0x3000 + q.val) % 0x1000 = q := by omega
  rw [writeReg_central (quoin_unguarded q).1 (quoin_unguarded q).2 _ _ _ _ (by omega) (by omega)]
  have hne : ∀ k < 0x3000, 0x3000 + q.val ≠ k := by omega
  simp [writeCentral, hb, hk, hne]

section
variable {s : State} {a : Acc} {q : Fin 64} {m : M}

/-! ### Acquiring -/

section
variable (h : Reaches s a (0x3000 + q) false) (hm : m = s.woken (0x3000 + q))
include h hm

theorem exec_quoRead_free (h0 : (m.quoin q).owner = 0) :
    exec (.quoRead a q) s = .next (s.applied (returning (m.setQuoin q ⟨ownerId a, false, m.now⟩)
      (if (m.quoin q).stale then 0x80000000 else 0))) := by
  change execQuoRead a q s = _
  exact read_next h hm ((readDirect_quoin ..).trans (if_pos (beq_iff_eq.mpr h0)))

theorem exec_quoRead_held (h0 : (m.quoin q).owner ≠ 0) :
    exec (.quoRead a q) s = .next (s.applied (returning m ((m.quoin q).owner.setWidth 32))) := by
  change execQuoRead a q s = _
  exact read_next h hm ((readDirect_quoin ..).trans (if_neg (mt beq_iff_eq.mp h0)))

end

/-! ### Releasing -/

section
variable {v : Word} (h : Reaches s a (0x3000 + q) true) (hm : m = s.woken (0x3000 + q))
include h hm

theorem exec_quoWrite_owner (ho : (m.quoin q).owner = ownerId a) (hv : v = (ownerId a).setWidth 32) :
    exec (.quoWrite a q v) s = .next (s.applied (returning (m.setQuoin q .free) 0)) := by
  change execQuoWrite a q v s = _
  exact write_next h hm ((writeReg_quoin ..).trans (if_pos (by simp [ho, hv])))

theorem exec_quoWrite_other (ho : (m.quoin q).owner ≠ ownerId a ∨ v ≠ (ownerId a).setWidth 32) :
    exec (.quoWrite a q v) s = .next (s.applied (returning m 0)) := by
  change execQuoWrite a q v s = _
  refine write_next h hm ((writeReg_quoin ..).trans (if_neg ?_))
  rw [Bool.and_eq_true, beq_iff_eq, beq_iff_eq]
  rintro ⟨hown, hval⟩
  exact ho.elim (· hown) (· (hown ▸ hval))

end

/-! ### Breaking -/

theorem writeReg_quoBreak {v : Word} (e : Env) (m : M) (a : Acc) (h8 : v.getLsbD 8 = true) :
    writeReg e m a 18 v = breakQuoin m (fld v 0 6) := by
  rw [writeReg_central (by decide) (by decide) _ _ _ _ (by decide) (by decide)]
  exact if_pos h8

section
variable {v : Word} (h : Reaches s a 18 true) (hm : m = s.woken 18) (h8 : v.getLsbD 8 = true) (hq : fld v 0 6 = q)
include h hm h8 hq

theorem exec_quoBreak : exec (.quoBreak a v) s = .next (s.applied (returning (breakQuoin m q) 0)) := by
  change execQuoBreak a v s = _
  exact write_next h hm (hq ▸ writeReg_quoBreak _ _ _ h8)

end

theorem breakQuoin_held {q : Nat} (h0 : (m.quoin q).owner ≠ 0) : breakQuoin m q = m.setQuoin q ⟨0, true, 0⟩ :=
  if_neg (mt beq_iff_eq.mp h0)
theorem breakQuoin_free {q : Nat} (h0 : (m.quoin q).owner = 0) : breakQuoin m q = m := if_pos (beq_iff_eq.mpr h0)

theorem elapseTo_quoin (e : Env) (m : M) (t q : Nat) : (elapseTo e m t).quoin q = m.quoin q := by
  obtain ⟨c, g, f, d, hs⟩ := elapse_shape e m (t - m.now)
  unfold elapseTo
  rw [hs]
  rfl

theorem exec_quoinHoldLimit (h : Live s) (ho : ownerPath (s.m.quoin q).owner = 5)
    (hm : m = elapseTo s.env s.m ((s.m.quoin q).since + 50 * fld (rd s.env s.m rQuoinMax) 0 16)) :
    exec (.quoinHoldLimit q) s = .next (s.withM (guardBlock s.env (m.setQuoin q ⟨0, true, 0⟩) 5 6)) := by
  have h0 : (m.quoin q).owner ≠ 0 := by
    rw [hm, elapseTo_quoin]
    intro h0
    rw [h0] at ho
    exact absurd ho (by decide)
  rw [← breakQuoin_held h0, hm]
  change execQuoinHoldLimit q s = _
  exact run_next h (if_neg (not_not.mpr ho))

end

/-- Settles O46. -/
theorem quoins : Obligations.Quoins := by
  refine fun s a q m => ⟨fun h hm => ⟨exec_quoRead_free h hm, exec_quoRead_held h hm⟩,
    fun v h hm => ⟨exec_quoWrite_owner h hm, exec_quoWrite_other h hm⟩, fun v h hm h8 hq => ?brk, exec_quoinHoldLimit⟩
  case brk =>
    rw [exec_quoBreak h hm h8 hq]
    exact ⟨fun h0 => by rw [breakQuoin_held h0], fun h0 => by rw [breakQuoin_free h0]⟩

end Sys2Proof.Machine
end

section
/-!
O47. Counter registers (R782, R783) and snapshots (R786 to R791).
-/

namespace Sys2Proof.Machine

open Sys2Proof

/-! ### Where the counters stand -/

/-- A register whose read does nothing but what its counter group or its RC bits say: no quoin, no second half of a sample, no selector. -/
def plainRead (w : Nat) : Bool :=
  w / 0x1000 ≠ 3 && !(w / 0x1000 = 6 && 0xE ≤ w % 0x1000) && w ≠ 0x4008 && w ≠ 0x4010
    && !(0x40 ≤ w / 0x1000 && (w % 0x1000 = 8 || w % 0x1000 = 0xC))

/-- What a plain read's register is not. -/
structure PlainRead (w : Nat) : Prop where
  quoin : ¬ w / 0x1000 = 3
  sample : ¬ (w / 0x1000 = 6 ∧ 0xE ≤ w % 0x1000)
  log : ¬ w = 0x4008
  slip : ¬ w = 0x4010
  tag : ¬ (0x40 ≤ w / 0x1000 ∧ w % 0x1000 = 8)
  dir : ¬ (0x40 ≤ w / 0x1000 ∧ w % 0x1000 = 0xC)

theorem plainRead_spec {w : Nat} (h : plainRead w = true) : PlainRead w := by
  simp only [plainRead, Bool.and_eq_true, Bool.not_eq_true', decide_eq_true_eq, Bool.and_eq_false_iff, decide_eq_false_iff_not,
    Bool.or_eq_false_iff] at h
  constructor <;> tauto

section
variable {w i c : Nat} (h : PlainRead w) (e : Env) (m : M) (a : Acc)
include h

theorem readDirect_low (hc : ctrReg w = some (1, i, c)) :
    readDirect e m a w = (setLatch m a.path (i * 16 + c) (some (((m.ctr i c) >>> 32).setWidth 16)), (m.ctr i c).setWidth 32) := by
  simp only [readDirect, if_neg h.quoin, if_neg h.sample, if_neg h.log, if_neg h.slip, if_neg h.tag, if_neg h.dir, hc]

theorem readDirect_high_latched {v : BitVec 16} (hc : ctrReg w = some (2, i, c)) (hv : m.latchOf a.path (i * 16 + c) = some v) :
    readDirect e m a w = (setLatch m a.path (i * 16 + c) none, v.setWidth 32) := by
  simp only [readDirect, if_neg h.quoin, if_neg h.sample, if_neg h.log, if_neg h.slip, if_neg h.tag, if_neg h.dir, hc, hv]

theorem readDirect_high (hc : ctrReg w = some (2, i, c)) (hv : m.latchOf a.path (i * 16 + c) = none) :
    readDirect e m a w = (m, ((m.ctr i c) >>> 32).setWidth 32) := by
  simp only [readDirect, if_neg h.quoin, if_neg h.sample, if_neg h.log, if_neg h.slip, if_neg h.tag, if_neg h.dir, hc, hv, regView]

end

/-- What the low or the high word of a counter is decoded to. -/
theorem ctrWord_decoded : ∀ (i : Fin 31) (k : Fin 10) (part : Fin 2),
    (ctrWord ⟨i, k⟩ (part + 1)).all (fun w => decide (ctrReg w = some (part.val + 1, i.val, k.val)) && plainRead w && !isRwg w) = true := by
  decide +kernel

theorem ctrWord_some {c : CtrId} {w : Nat} (part : Fin 2) (h : ctrWord c (part + 1) = some w) :
    ctrReg w = some (part.val + 1, c.island.val, c.k.val) ∧ PlainRead w ∧ isRwg w = false := by
  have hd := ctrWord_decoded c.island c.k part
  rw [h, Option.all_some, Bool.and_eq_true, Bool.and_eq_true, decide_eq_true_eq, Bool.not_eq_true'] at hd
  exact ⟨hd.1.1, plainRead_spec hd.1.2, hd.2⟩

theorem writeReg_low {w i c : Nat} (hg : isRwg w = false) (hc : ctrReg w = some (1, i, c)) (e : Env) (m : M) (a : Acc) (v : Word) :
    writeReg e m a w v = m.setCtr i c (v.setWidth 48) := by
  simp only [writeReg, hg, hc, Bool.false_and, Bool.false_eq_true, if_false]

/-! ### Counters -/

section
variable {s : State} {a : Acc} {c : CtrId} {w : Nat} {m : M} (hm : m = s.woken w)
include hm

theorem exec_pmcLoRead (hw : ctrWord c 1 = some w) (h : Reaches s a w false) :
    exec (.pmcLoRead a c) s = .next (s.applied (returning
      (setLatch m a.path (c.island * 16 + c.k) (some (((m.ctr c.island c.k) >>> 32).setWidth 16))) ((m.ctr c.island c.k).setWidth 32))) := by
  obtain ⟨hc, hp, -⟩ := ctrWord_some 0 hw
  change execPmcLoRead a c s = _
  simp only [execPmcLoRead, ctrRow, hw]
  exact read_next h hm (readDirect_low hp _ _ _ hc)

section
variable (hw : ctrWord c 2 = some w) (h : Reaches s a w false)
include hw h

theorem exec_pmcHiRead_latched {v : BitVec 16} (hv : m.latchOf a.path (c.island * 16 + c.k) = some v) :
    exec (.pmcHiRead a c) s = .next (s.applied (returning
      (setLatch m a.path (c.island * 16 + c.k) none) (v.setWidth 32))) := by
  obtain ⟨hc, hp, -⟩ := ctrWord_some 1 hw
  change execPmcHiRead a c s = _
  simp only [execPmcHiRead, ctrRow, hw]
  exact read_next h hm (readDirect_high_latched hp _ _ _ hc hv)

theorem exec_pmcHiRead (hv : m.latchOf a.path (c.island * 16 + c.k) = none) :
    exec (.pmcHiRead a c) s = .next (s.applied (returning m (((m.ctr c.island c.k) >>> 32).setWidth 32))) := by
  obtain ⟨hc, hp, -⟩ := ctrWord_some 1 hw
  change execPmcHiRead a c s = _
  simp only [execPmcHiRead, ctrRow, hw]
  exact read_next h hm (readDirect_high hp _ _ _ hc hv)

end

theorem exec_pmcLoWrite (v : Word) (hw : ctrWord c 1 = some w) (h : Reaches s a w true) :
    exec (.pmcLoWrite a c v) s = .next (s.applied (returning (m.setCtr c.island c.k (v.setWidth 48)) 0)) := by
  obtain ⟨hc, -, hg⟩ := ctrWord_some 0 hw
  change execPmcLoWrite a c v s = _
  simp only [execPmcLoWrite, ctrRow, hw]
  exact write_next h hm (writeReg_low hg hc ..)

end

/-! ### Snapshots -/

theorem exec_prfSnapStart {s : State} {a : Acc} {m : M} (hm : m = s.woken 0x6000) (h : Reaches s a 0x6000 true) :
    exec (.prfSnapStart a) s = .next (s.applied (returning (startWalk m) 0)) := by
  change execPrfSnapStart a s = _
  refine write_next h hm ?_
  rw [writeReg_central (by decide) (by decide) _ _ _ _ (by decide) (by decide)]
  rfl

theorem exec_prfWalkDone {s : State} (h : Live s) (ws : List Nat) :
    exec (.prfWalkDone ws) s = .next (s.withM (endWalk s.env s.m ws)) := by
  change execPrfWalkDone ws s = _
  exact runLive_live h _

/-- Settles O47. -/
theorem countersAndSnapshots : Obligations.CountersAndSnapshots :=
  ⟨fun _ _ _ _ _ hm => ⟨exec_pmcLoRead hm, fun hw h => ⟨fun _ => exec_pmcHiRead_latched hm hw h, exec_pmcHiRead hm hw h⟩,
      fun v => exec_pmcLoWrite hm v⟩,
    fun _ _ ws _ hm => ⟨exec_prfSnapStart hm, fun h _ => exec_prfWalkDone h ws⟩⟩

end Sys2Proof.Machine
end

section
/-!
O48. Doorbells, the order of the rings, the controller's register (R565, R578, R605, Table 12.13), and the windows (R93, R811, R824 to
R834, Table 18.1).
-/

namespace Sys2Proof.Machine

open Sys2Proof

/-! ### Doorbells -/

theorem doorbell_unguarded : ∀ r : Fin 40, isRwg (0x2080 + r) = false ∧ ctrReg (0x2080 + r) = none := by decide

theorem writeReg_doorbell (e : Env) (m : M) (a : Acc) (r : Fin 40) (v : Word) :
    writeReg e m a (0x2080 + r) v = doorbell e m a r v := by
  have hb : (0x2080 + r.val) / 0x1000 = 2 := by omega
  have hk : (0x2080 + r.val) % 0x1000 = 0x80 + r := by omega
  have hne : ∀ k < 0x2080, 0x2080 + r.val ≠ k := by omega
  rw [writeReg_central (doorbell_unguarded r).1 (doorbell_unguarded r).2 _ _ _ _ (by omega) (by omega)]
  simp [writeCentral, hb, hk, hne]

theorem exec_mbxDoorbell {s : State} {a : Acc} {m : M} {r : Fin 40} {v : Word} (h : Reaches s a (0x2080 + r) true)
    (hm : m = s.woken (0x2080 + r)) : exec (.mbxDoorbell a r v) s = .next (s.applied (returning (doorbell s.env m a r v) 0)) := by
  change execMbxDoorbell a r v s = _
  exact write_next h hm (writeReg_doorbell ..)

/-! ### The controller's register -/

section
variable {s : State} {a : Acc} {m : M} (h : Reaches s a 3 true) (hm : m = s.woken 3)
include h hm

section
variable (hj : a.path ≠ .jtag) (hf : a.path ≠ .jpc)
include hj hf

theorem exec_jpcCtlRestart : exec (.jpcCtlRestart a) s = .next (s.applied (fin s.env (returning (restartJpc s.env m 2) 0))) := by
  change execJpcCtlRestart a s = _
  refine write_finished h hm ?_
  rw [writeReg_rwg hj hf (by decide) (by decide) (by decide)]
  rfl

theorem exec_jpcCtlHalt : exec (.jpcCtlHalt a) s = .next (s.applied (fin s.env (returning (haltJpc s.env m 2) 0))) := by
  change execJpcCtlHalt a s = _
  refine write_finished h hm ?_
  rw [writeReg_rwg hj hf (by decide) (by decide) (by decide)]
  rfl

end

theorem exec_jpcCtlRestart_jtag (hj : a.path = .jtag) :
    exec (.jpcCtlRestart a) s = .next (s.applied (fin s.env (returning m 0))) := by
  change execJpcCtlRestart a s = _
  exact write_finished h hm (writeReg_jtag (by decide) hj ..)

theorem exec_jpcCtlRestart_jpc (hf : a.path = .jpc) :
    exec (.jpcCtlRestart a) s = .next (s.applied (fin s.env (returning (guardBlock s.env m 2 5) 0))) := by
  change execJpcCtlRestart a s = _
  exact write_finished h hm (writeReg_guarded (by decide) hf ..)

end

/-! ### The order of the rings -/

theorem command_notInTurn {e : Env} {m : M} {d : Desc} (h : inTurn m d.ring = false) (c : Cmd) (f : M → M × BitVec 448) :
    command e m d c f = m := if_pos (by simp [served, h])

theorem exec_infoGet_notInTurn {s : State} {d : Desc} (h : Live s) (ht : inTurn s.m d.ring = false) :
    exec (.infoGet d) s = .next s := by
  change execInfoGet d s = _
  exact run_next h (command_notInTurn ht ..)

/-- No ring of class 0 has its turn while one of class 1 is ready (R565). -/
theorem inTurn_low {m : M} {r q : Nat} (hr : r ∈ classRings false) (hq : q ∈ classRings true) (hready : ringReady m q = true) :
    inTurn m r = false := by
  have hlow : (classRings true).contains r = false := by revert r; decide
  have hany : (classRings true).any (ringReady m) = true := List.any_eq_true.mpr ⟨q, hq, hready⟩
  simp only [inTurn, hlow, hany, Bool.not_true, Bool.or_self, Bool.false_and]

/-! ### The windows -/

section
variable {e : Env} {m : M} {a : Acc} {addr v : Word}

theorem inIsland_alive {i : Nat} (h : i = 31 ∨ (m.isl.clkFail.getLsbD i = false ∧ m.isl.clkFail.getLsbD 16 = false))
    (f : M → M × Word) : (inIsland e m i addr f).1 = returning (f (wakeIsland e m i)).1 (f (wakeIsland e m i)).2 := by
  have hdead : ¬ (i ≠ 31 && (m.isl.clkFail.getLsbD i || (i ≠ 16 && m.isl.clkFail.getLsbD 16))) = true := by
    rcases h with h | ⟨hi, h16⟩
    · simp [h]
    · simp [hi, h16, -BitVec.getLsbD_eq_getElem]
  unfold inIsland
  rw [if_neg hdead]
  rfl

theorem access_alias_write {w b : Nat} {own : Bool} (ht : target addr = .alias_ w b own)
    (ha : allowed e m a (.alias_ w b own) true = true) (hw : regAbsent e.fuse.variant w = false)
    (hi : regIsland w = 31 ∨ (m.isl.clkFail.getLsbD (regIsland w) = false ∧ m.isl.clkFail.getLsbD 16 = false)) :
    (access e m a addr true v).1 = returning (writeAlias e (wakeIsland e m (regIsland w)) a w b v) 0 := by
  simp only [access, ht, ha, hw, Bool.not_true, Bool.false_eq_true, if_false, if_true]
  exact inIsland_alive hi _

theorem access_mirror_read {w : Nat} {own : Bool} (ht : target addr = .mirror w own) (ha : allowed e m a (.mirror w own) false = true) :
    (access e m a addr false v).1 = returning m (mirrorRead e m w) := by
  simp only [access, ht, ha, Bool.not_true, Bool.false_eq_true, if_false]
  rfl

theorem access_ring {r k : Nat} {write : Bool} (ht : target addr = .ring r k) (ha : allowed e m a (.ring r k) write = true)
    (h30 : m.isl.clkFail.getLsbD 30 = false) (h16 : m.isl.clkFail.getLsbD 16 = false) :
    (access e m a addr write v).1 = (if write then returning (writeRing e (wakeIsland e m 30) a r k v) 0
      else returning (wakeIsland e m 30) (readRing e (wakeIsland e m 30) a r k)) := by
  simp only [access, ht, ha, Bool.not_true, Bool.false_eq_true, if_false]
  rw [inIsland_alive (.inr ⟨h30, h16⟩)]
  cases write <;> rfl

end

section
variable {s : State} {a : Acc} {addr : Word} (h : Live s) (hp : pathUp s.m a.path = true) (v : Word)
include h hp

theorem exec_bitAliasWrite_reached {w b : Nat} {own : Bool} {m : M} (ht : target addr = .alias_ w b own)
    (ha : allowed s.env s.m a (.alias_ w b own) true = true) (hw : regAbsent s.fuse.variant w = false)
    (hi : regIsland w = 31 ∨ (s.m.isl.clkFail.getLsbD (regIsland w) = false ∧ s.m.isl.clkFail.getLsbD 16 = false))
    (hm : m = s.woken w) :
    exec (.bitAliasWrite a addr v) s = .next (s.applied (fin s.env (returning (writeAlias s.env m a w b v) 0))) := by
  subst hm
  rw [exec_bitAliasWrite ht, writeRow_live h hp, access_alias_write ht ha hw hi]
  rfl

omit v in
theorem exec_mirrorWindowRead {w : Nat} {own : Bool} (ht : target addr = .mirror w own)
    (ha : allowed s.env s.m a (.mirror w own) false = true) :
    exec (.mirrorWindowRead a addr) s = .next (s.applied (returning s.m (mirrorRead s.env s.m w))) := by
  change execMirrorWindowRead a addr s = _
  simp only [execMirrorWindowRead, ht]
  rw [accessRow_live h hp, access_mirror_read ht ha]

section
variable {r k : Nat} {m : M} (ht : target addr = .ring r k) (h30 : s.m.isl.clkFail.getLsbD 30 = false)
  (h16 : s.m.isl.clkFail.getLsbD 16 = false) (hm : m = wakeIsland s.env s.m 30)
include ht h30 h16 hm

theorem exec_ringWindowAccess {write : Bool} (ha : allowed s.env s.m a (.ring r k) write = true) :
    exec (.ringWindowAccess a addr write v) s = .next (s.applied
      (if write then returning (writeRing s.env m a r k v) 0 else returning m (readRing s.env m a r k))) := by
  subst hm
  change execRingWindowAccess a addr write v s = _
  simp only [execRingWindowAccess, ht]
  rw [accessRow_live h hp, access_ring ht ha h30 h16]

end

end

/-- Settles O48. -/
theorem mailboxAndWindows : Obligations.MailboxAndWindows := by
  refine ⟨fun s a m => ⟨fun r v h hm => exec_mbxDoorbell h hm, fun h hm => ⟨fun hj hf => ?_, fun hj => exec_jpcCtlRestart_jtag h hm hj,
      fun hf => exec_jpcCtlRestart_jpc h hm hf⟩, fun d h ht => exec_infoGet_notInTurn h ht, fun r q => inTurn_low⟩,
    fun s a addr v h hp => ⟨fun w b own m => exec_bitAliasWrite_reached h hp v, fun w own => exec_mirrorWindowRead h hp,
      fun r k m ht h30 h16 hm => ⟨fun ha => ?_, fun ha => ?_⟩, fun w m hr hm => ?_⟩⟩
  · exact ⟨exec_jpcCtlRestart h hm hj hf, exec_jpcCtlHalt h hm hj hf⟩
  · exact exec_ringWindowAccess h hp v ht h30 h16 hm ha
  · exact exec_ringWindowAccess h hp v ht h30 h16 hm ha
  · rw [exec_regWrite, write_finished hr hm rfl]

end Sys2Proof.Machine
end

section
/-!
O49 and O50. Register reads with effects (R96, R864, R865, R871), and the settings that registers hold (R229, R230, R362, R419, R438,
R450, R869).
-/

namespace Sys2Proof.Machine

open Sys2Proof

/-! ### Registers that a read clears -/

/-- Where the counters of the islands stand among the register blocks. -/
theorem ctrReg_place {w j i c : Nat} (h : ctrReg w = some (j, i, c)) :
    (8 ≤ w / 0x1000 ∧ w / 0x1000 < 0x40) ∨ (0x40 ≤ w / 0x1000 ∧ 0x30 ≤ w % 0x1000) := by
  have hg : ∃ g, groupOf w = some g := by
    unfold ctrReg at h
    split at h
    · cases h
    · exact ⟨_, ‹_›⟩
  obtain ⟨g, hg⟩ := hg
  simp only [groupOf] at hg
  generalize regIsland w = n at hg
  split at hg
  · cases hg
  · next b p k hk =>
    split at hg
    · cases hg
    · next hin =>
      simp only [ctrGroup, rSlc] at hk
      split_ifs at hk <;> simp only [Option.some.injEq, Prod.mk.injEq] at hk <;> omega

theorem rcBits_of_ctrReg {w j i c : Nat} (h : ctrReg w = some (j, i, c)) (hj : j ≠ 3) : rcBits w = 0 := by
  unfold rcBits
  rw [h]
  split
  · next heq => simp_all
  · rfl
  · next heq => cases heq

theorem blockLink_of_ge {b : Nat} (h : 0x14 ≤ b) : blockLink b = none := by
  unfold blockLink
  rw [if_neg (by omega), if_neg (by omega), if_neg (by omega), if_neg (by omega), if_neg (by omega)]

/-- A register with RC bits is read plainly, and is no word of a counter. -/
theorem plainRead_of_rcBits {w : Nat} (h : rcBits w ≠ 0) : PlainRead w := by
  cases hc : ctrReg w with
  | some g =>
    obtain ⟨j, i, c⟩ := g
    have hp := ctrReg_place hc
    constructor <;> omega
  | none =>
    constructor
    case quoin => exact fun hb => h (by simp [rcBits, hc, hb, blockLink])
    case sample =>
      rintro ⟨hb, hk⟩
      have h5 : w % 0x1000 ≠ 5 := by omega
      have h6 : w % 0x1000 ≠ 6 := by omega
      exact h (by simp [rcBits, hc, hb, h5, h6])
    case log => rintro rfl; exact h (by decide)
    case slip => rintro rfl; exact h (by decide)
    case tag =>
      rintro ⟨hb, hk⟩
      have hl := blockLink_of_ge (b := w / 0x1000) (by omega)
      exact h (by simp [rcBits, hc, hl, hk])
    case dir =>
      rintro ⟨hb, hk⟩
      have hl := blockLink_of_ge (b := w / 0x1000) (by omega)
      exact h (by simp [rcBits, hc, hl, hk])

theorem readDirect_clears {w : Nat} (h : PlainRead w) (hc : ctrReg w = none ∨ ∃ i c, ctrReg w = some (3, i, c)) (e : Env) (m : M) (a : Acc) :
    readDirect e m a w = (clearRc e m w, regView e m a.path w) := by
  rcases hc with hc | ⟨i, c, hc⟩ <;>
    simp only [readDirect, if_neg h.quoin, if_neg h.sample, if_neg h.log, if_neg h.slip, if_neg h.tag, if_neg h.dir, hc]

theorem readDirect_rc {w : Nat} (h : rcBits w ≠ 0) (e : Env) (m : M) (a : Acc) :
    readDirect e m a w = (clearRc e m w, regView e m a.path w) := by
  refine readDirect_clears (plainRead_of_rcBits h) ?_ e m a
  cases hc : ctrReg w with
  | none => exact .inl rfl
  | some g =>
    obtain ⟨j, i, c⟩ := g
    obtain rfl : j = 3 := by_contra fun hj => h (rcBits_of_ctrReg hc hj)
    exact .inr ⟨i, c, rfl⟩

/-- A register without RC bits keeps its value. -/
theorem clearRc_none {w : Nat} (h : rcBits w = 0) (e : Env) (m : M) : clearRc e m w = m := if_pos (beq_iff_eq.mpr h)

section
variable {s : State} {a : Acc} {m : M}

theorem exec_rcRegisterRead_reached {w : Nat} (h : Reaches s a w false) (hm : m = s.woken w) (hw : rcBits w ≠ 0) :
    exec (.rcRegisterRead a (regAddr w)) s = .next (s.applied (returning (clearRc s.env m w) (regView s.env m a.path w))) := by
  rw [exec_rcRegisterRead]
  exact read_next h hm (readDirect_rc hw ..)

theorem exec_errAlertRead (h : Reaches s a rAlert false) (hm : m = s.woken rAlert) :
    exec (.errAlertRead a) s = .next (s.applied (returning (clearRc s.env m rAlert) (regView s.env m a.path rAlert))) := by
  change execErrAlertRead a s = _
  exact read_next h hm (readDirect_rc (by decide) ..)

theorem readDirect_imposeResult {w : Nat} (hw : w = 0x8006 ∨ w = 0x8007) (e : Env) (m : M) (a : Acc) :
    readDirect e m a w = (m, regView e m a.path w) := by
  rcases hw with rfl | rfl <;>
    rw [readDirect_clears (plainRead_spec (by decide)) (.inl (by decide)), clearRc_none (by decide)]

theorem exec_imposeResultRead {aux : Bool} {w : Nat} (hw : w = (if aux then 0x8007 else 0x8006)) (h : Reaches s a w false)
    (hm : m = s.woken w) : exec (.imposeResultRead a aux) s = .next (s.applied (returning m (regView s.env m a.path w))) := by
  have hplace : w = 0x8006 ∨ w = 0x8007 := by cases aux <;> simp_all
  change execImposeResultRead a aux s = _
  rw [execImposeResultRead, ← hw]
  exact read_next h hm (readDirect_imposeResult hplace ..)

/-! ### Selectors -/

/-- What a read of a selector's first data register captures for the path. -/
def captured (e : Env) (m : M) (p : Path) : Sel → M
  | .log => captureLog m p
  | .slip => captureSlip m p
  | .tag x => captureTag e m p x
  | .dir x => captureDir e m p x

theorem readDirect_selData0 (e : Env) (m : M) (a : Acc) (sel : Sel) :
    readDirect e m a (selData0 sel) = (captured e m a.path sel, regView e (captured e m a.path sel) a.path (selData0 sel)) := by
  cases sel with
  | log => rfl
  | slip => rfl
  | tag x =>
    have hb : rSlc x 8 / 0x1000 = 0x40 + x := by simp only [rSlc]; omega
    have hk : rSlc x 8 % 0x1000 = 8 := by simp only [rSlc]; omega
    have hne : ∀ k < 0x40000, rSlc x 8 ≠ k := by intro k hk; simp only [rSlc]; omega
    simp [readDirect, selData0, captured, hb, hk, hne]
    omega
  | dir x =>
    have hb : rSlc x 0xC / 0x1000 = 0x40 + x := by simp only [rSlc]; omega
    have hk : rSlc x 0xC % 0x1000 = 0xC := by simp only [rSlc]; omega
    have hne : ∀ k < 0x40000, rSlc x 0xC ≠ k := by intro k hk; simp only [rSlc]; omega
    simp [readDirect, selData0, captured, hb, hk, hne]
    omega

theorem exec_selectorData0Read {sel : Sel} (h : Reaches s a (selData0 sel) false) (hm : m = s.woken (selData0 sel)) :
    exec (.selectorData0Read a sel) s = .next (s.applied (returning (captured s.env m a.path sel)
      (regView s.env (captured s.env m a.path sel) a.path (selData0 sel)))) := by
  change execSelectorData0Read a sel s = _
  exact read_next h hm (readDirect_selData0 ..)

theorem exec_selectorWrite_log {v : Word} (h : Reaches s a 0x4006 true) (hm : m = s.woken 0x4006) :
    exec (.selectorWrite a .log v) s = .next (s.applied (returning (setSel m a.path 0 v) 0)) := by
  change execSelectorWrite a .log v s = _
  refine write_next h hm ?_
  rw [writeReg_central (by decide) (by decide) _ _ _ _ (by decide) (by decide)]
  rfl

theorem slice_selector_unguarded : ∀ x : Fin 16, isRwg (rSlc x 5) = false ∧ ctrReg (rSlc x 5) = none := by decide

theorem exec_selectorWrite_tag {x : Fin 16} {v : Word} (h : Reaches s a (rSlc x 5) true) (hm : m = s.woken (rSlc x 5)) :
    exec (.selectorWrite a (.tag x) v) s = .next (s.applied (returning (setSel m a.path (2 + x) (v &&& 0xF7FFF)) 0)) := by
  have hb : rSlc x 5 / 0x1000 = 0x40 + x := by simp only [rSlc]; omega
  have hk : rSlc x 5 % 0x1000 = 5 := by simp only [rSlc]; omega
  have hl := blockLink_of_ge (b := 0x40 + x) (by omega)
  change execSelectorWrite a (.tag x) v s = _
  refine write_next h hm ?_
  rw [selWord, writeReg_unit (slice_selector_unguarded x).1 (slice_selector_unguarded x).2 _ _ _ _ (by simp only [rSlc]; omega)]
  simp [writeUnit, hb, hk, hl]
  omega

end

/-- Settles O49. -/
theorem readsWithEffects : Obligations.ReadsWithEffects := by
  refine fun s a => ⟨fun w m h hm hw => exec_rcRegisterRead_reached h hm hw, fun m h hm => exec_errAlertRead h hm,
    fun aux w m hw h hm => exec_imposeResultRead hw h hm, fun sel m h hm t ht => ?sel, fun v m h hm => exec_selectorWrite_log h hm,
    fun x v m h hm => exec_selectorWrite_tag h hm⟩
  case sel =>
    obtain rfl : t = captured s.env m a.path sel := by rw [ht]; cases sel <;> rfl
    exact exec_selectorData0Read h hm

end Sys2Proof.Machine
end

section
/-!
O50. The settings that registers hold (R229, R230, R362, R419, R438, R450, R869).
-/

namespace Sys2Proof.Machine

open Sys2Proof

section
variable {s : State} {a : Acc} {v : Word} {m : M}

/-! ### Settings of the twinned store -/

theorem writeReg_histShift (e : Env) (m : M) (a : Acc) (v : Word) :
    writeReg e m a 0x6009 v = if 3 ≤ fld v 0 4 ∧ fld v 0 4 ≤ 10 ∧ fld v 0 4 ≠ e.cfg.histShift.toNat
      then clearBins (writeSetting m 0x6009 v) else m := by
  rw [writeReg_central (by decide) (by decide) _ _ _ _ (by decide) (by decide)]
  rfl

theorem exec_histShiftWrite (h : Reaches s a 0x6009 true) (hm : m = s.woken 0x6009) :
    exec (.histShiftWrite a v) s = .next (s.applied (returning
      (if 3 ≤ fld v 0 4 ∧ fld v 0 4 ≤ 10 ∧ fld v 0 4 ≠ s.cfg.histShift.toNat then clearBins (writeSetting m 0x6009 v) else m) 0)) := by
  change execHistShiftWrite a v s = _
  exact write_next h hm (writeReg_histShift ..)

theorem exec_appPolicyWrite (h : Reaches s a 12 true) (hm : m = s.woken 12) :
    exec (.appPolicyWrite a v) s = .next (s.applied (returning (writeSetting m 12 v) 0)) := by
  change execAppPolicyWrite a v s = _
  refine write_next h hm ?_
  rw [writeReg_central (by decide) (by decide) _ _ _ _ (by decide) (by decide)]
  rfl

theorem exec_memportEquivWrite (h : Reaches s a rEquiv true) (hm : m = s.woken rEquiv) (hj : a.path ≠ .jtag) (hf : a.path ≠ .jpc) :
    exec (.memportEquivWrite a v) s = .next (s.applied (returning (wr s.env m rEquiv (v &&& 1)) 0)) := by
  change execMemportEquivWrite a v s = _
  refine write_next h hm ?_
  rw [writeReg_rwg hj hf (by decide) (by decide) (by decide)]
  rfl

/-! ### A channel's first timing register -/

theorem dacTiming_unguarded : ∀ d : Fin 8, isRwg (rDac d 0xC) = false ∧ ctrReg (rDac d 0xC) = none := by decide

/-- An illegal speed is not taken, and no timing outside RESET (R450). -/
theorem writeReg_dacTiming (e : Env) (m : M) (a : Acc) (d : Fin 8) (v : Word) :
    writeReg e m a (rDac d 0xC) v = if (m.dac d).st = .reset then (if 5 ≤ fld v 0 3 then m else wr e m (rDac d 0xC) (v &&& 0x7FFFFFF))
      else m := by
  have hb : rDac d 0xC / 0x1000 = 0x20 + d := by simp only [rDac]; omega
  have hk : rDac d 0xC % 0x1000 = 0xC := by simp only [rDac]; omega
  have hl := blockLink_of_ge (b := 0x20 + d) (by omega)
  have hd : 0x20 + d.val < 0x28 := by omega
  rw [writeReg_unit (dacTiming_unguarded d).1 (dacTiming_unguarded d).2 _ _ _ _ (by simp only [rDac]; omega)]
  simp [writeUnit, hb, hk, hl, hd]

theorem exec_dacTimingWrite {d : Fin 8} (h : Reaches s a (rDac d 0xC) true) (hm : m = s.woken (rDac d 0xC)) :
    exec (.dacTimingWrite a d 0 v) s = .next (s.applied (returning
      (if (m.dac d).st = .reset then (if 5 ≤ fld v 0 3 then m else wr s.env m (rDac d 0xC) (v &&& 0x7FFFFFF)) else m) 0)) := by
  change execDacTimingWrite a d 0 v s = _
  exact write_next h hm (writeReg_dacTiming ..)

/-! ### A link's configuration register -/

theorem linkCfg_unguarded : ∀ l, isRwg (rLinkCfg l) = false ∧ ctrReg (rLinkCfg l) = none := by
  intro l; cases l <;> decide

theorem writeReg_linkCfg (e : Env) (m : M) (a : Acc) (l : Lnk) (v : Word) : writeReg e m a (rLinkCfg l) v = writeLinkCfg e m l v := by
  rw [writeReg_unit (linkCfg_unguarded l).1 (linkCfg_unguarded l).2 _ _ _ _ (by cases l <;> decide)]
  cases l <;> rfl

section
variable {l : Lnk} (h : Reaches s a (rLinkCfg l) true) (hm : m = s.woken (rLinkCfg l))
include h hm

theorem exec_linkCfgThresholdWrite :
    exec (.linkCfgThresholdWrite a l v) s = .next (s.applied (fin s.env (returning (writeLinkCfg s.env m l v) 0))) := by
  change execLinkCfgThresholdWrite a l v s = _
  exact write_finished h hm (writeReg_linkCfg ..)

theorem exec_linkCfgHoldDownWrite :
    exec (.linkCfgHoldDownWrite a l v) s = .next (s.applied (fin s.env (returning (writeLinkCfg s.env m l v) 0))) := by
  change execLinkCfgHoldDownWrite a l v s = _
  exact write_finished h hm (writeReg_linkCfg ..)

end

end

/-- Settles O50. -/
theorem settingAccesses : Obligations.SettingAccesses := by
  refine fun s a v m => ⟨fun h hm => ⟨fun hlo hhi hne => ?_, fun hn => ?_⟩, exec_appPolicyWrite, exec_memportEquivWrite,
    fun d h hm => ⟨fun hr hv => ?_, fun hn => ?_⟩, fun l h hm => ⟨exec_linkCfgThresholdWrite h hm, exec_linkCfgHoldDownWrite h hm⟩⟩
  · rw [exec_histShiftWrite h hm, if_pos ⟨hlo, hhi, hne⟩]
  · rw [exec_histShiftWrite h hm, if_neg (by omega)]
  · rw [exec_dacTimingWrite h hm, if_pos hr, if_neg (by omega)]
  · rw [exec_dacTimingWrite h hm]
    rcases hn with hr | hv
    · rw [if_neg hr]
    · rw [if_pos hv, ite_self]

end Sys2Proof.Machine
end

section
/-!
O51. SMBus and JTAG (R812 to R817, R929, R932, R937).
-/

namespace Sys2Proof.Machine

open Sys2Proof

section
variable {s : State} (h : Live s)
include h

/-! ### SMBus -/

section
variable {addr data : Word} (hp : pathUp s.m .smbus = true)
include hp

theorem exec_smbusRegRead {t : M} {x : AccEnd} (ht : (t, x) = access s.env s.m smbAcc addr false 0) :
    exec (.smbusRegRead addr 4) s = .next (s.applied (fin s.env
      (t.setAcc fun a => { a with smbRead := BitVec.ofNat 8 (bit (x == .abandoned)), smbData := a.readData }))) := by
  change execSmbusRegRead addr 4 s = _
  rw [execSmbusRegRead, runSettings_live h]
  simp only [hp, ← ht, Bool.not_true, Bool.false_eq_true, ne_eq, not_true_eq_false, if_false]

theorem exec_smbusRegWrite {t : M} {x : AccEnd} (ht : (t, x) = access s.env s.m smbAcc addr true data) :
    exec (.smbusRegWrite addr data 8 true) s = .next (s.applied (fin s.env
      (t.setAcc fun a => { a with smbStatus := BitVec.ofNat 8 (bit (x == .abandoned)) }))) := by
  change execSmbusRegWrite addr data 8 true s = _
  rw [execSmbusRegWrite, runSettings_live h]
  simp only [hp, ← ht, Bool.not_true, Bool.or_self, Bool.false_eq_true, ne_eq, not_true_eq_false, if_false]

theorem exec_smbusRegWrite_count {n : Nat} (hn : n ≠ 8) :
    exec (.smbusRegWrite addr data n true) s = .next (s.applied (s.m.setAcc fun a => { a with smbStatus := 2 })) := by
  change execSmbusRegWrite addr data n true s = _
  rw [execSmbusRegWrite, runSettings_live h]
  simp only [hp, hn, Bool.not_true, Bool.or_self, Bool.false_eq_true, ne_eq, not_false_eq_true, if_false, if_true]

theorem exec_smbusLastStatus :
    exec .smbusLastStatus s = .next (s.withM (s.m.setAcc fun a => { a with readData := a.smbStatus.setWidth 32 })) := by
  change execSmbusLastStatus s = _
  exact run_next h (if_pos hp)

end

theorem exec_smbusTimeout :
    exec .smbusTimeout s = .next (s.withM (loseQuoins (elapse s.env s.m 1500000) fun o => ownerPath o = 3)) := by
  change execSmbusTimeout s = _
  exact runLive_live h _

end

/-! ### JTAG -/

/-- The register of a REG_ACCESS with its start bit: the direction, the data and the address. -/
def regAccess (w : Bool) (data addr : Word) : BitVec (1 + 1 + 32 + 32) :=
  BitVec.ofBool true ++ BitVec.ofBool w ++ data ++ addr

section
variable (w : Bool) (data addr : Word)

theorem regAccess_start : (regAccess w data addr).getLsbD 65 = true := by
  simp only [regAccess, BitVec.getLsbD_append]; simp
theorem regAccess_write : (regAccess w data addr).getLsbD 64 = w := by simp only [regAccess, BitVec.getLsbD_append]; simp
theorem regAccess_addr : (regAccess w data addr).setWidth 32 = addr := by simp only [regAccess, BitVec.setWidth_append]; simp
theorem regAccess_data : (regAccess w data addr).extractLsb' 32 32 = data := by
  simp only [regAccess]
  rw [BitVec.extractLsb'_append_eq_of_le (by decide), BitVec.extractLsb'_append_eq_of_add_le (by decide)]
  exact BitVec.extractLsb'_eq_self

end

section
variable {s : State} {w : Bool} {data addr : Word} {m : M} (hd : s.m.acc.jtagDone = true)
  (hm : m = s.m.setAcc fun a => { a with tapIr := 0x20 })
include hd hm

theorem exec_jtagRegAccess {t : M} {x : AccEnd} (h : Live s) (hp : pathUp m .jtag = true)
    (ht : (t, x) = access s.env m { path := .jtag } addr w data) :
    exec (.jtagRegAccess (regAccess w data addr)) s = .next (s.applied (fin s.env (t.setAcc fun a => { a with
      jtagAddr := addr, jtagDone := true, jtagAbandoned := x == .abandoned
      jtagData := if w then a.jtagData else a.readData }))) := by
  have hdm : m.acc.jtagDone = true := by rw [hm]; exact hd
  change execJtagRegAccess _ s = _
  rw [execJtagRegAccess, h.1, runSettings_live h]
  simp only [regAccess_start, regAccess_write, regAccess_addr, regAccess_data, ← hm, hdm, hp, ← ht, Bool.not_true, Bool.or_self,
    Bool.false_eq_true, if_false]

theorem exec_jtagRegAccess_reset (hs : s.m.pins.testSampled = false) (ha : s.m.alive = false) :
    exec (.jtagRegAccess (regAccess w data addr)) s = .next (s.withM (showAbandoned m .jtag w addr)) := by
  have hdm : m.acc.jtagDone = true := by rw [hm]; exact hd
  change execJtagRegAccess _ s = _
  rw [execJtagRegAccess, ha, run_normal hs]
  simp only [regAccess_start, regAccess_write, regAccess_addr, ← hm, hdm, Bool.not_true, Bool.not_false, Bool.or_self,
    Bool.false_eq_true, if_false, if_true]

end

/-- Settles O51. -/
theorem boardPaths : Obligations.BoardPaths := fun _ _ _ _ _ hs =>
  ⟨fun h hp => ⟨exec_smbusRegRead h hp, exec_smbusRegWrite h hp, fun _ => exec_smbusRegWrite_count h hp, exec_smbusLastStatus h hp⟩,
    exec_smbusTimeout, fun _ _ hd hm => ⟨exec_jtagRegAccess hd hm, exec_jtagRegAccess_reset hd hm hs⟩⟩

end Sys2Proof.Machine
end

section
/-!
O52. Cold reset and the straps (R879, R880, R885 to R887, R919, R933, R936), what a cold reset keeps (Table 20.5), and the TAP (R932 to
R936).
-/

namespace Sys2Proof.Machine

open Sys2Proof

/-! ### Cold reset, the straps and VDD_AON -/

section
variable {s : State} {side t : Bool} {smb : BitVec 3} (hc : s.m.pins.coldRstN = false)
include hc

theorem exec_coldRstNRise {m : M} (hh : s.m.pins.jtagHold = false) (hm : m = s.m.setPins fun p => { p with
      coldRstN := true, pairSide := side, smbStraps := smb, testEn := t, testSampled := t }) :
    exec (.coldRstNRise side smb t) s = .next (s.withM (m.setBoot fun b => { b with phase := 1, since := m.now })) := by
  subst hm
  change execColdRstNRise side smb t s = _
  simp only [execColdRstNRise, runAlways, hc, hh, Bool.false_eq_true, if_false, State.withM]

theorem exec_coldRstNRise_held (hh : s.m.pins.jtagHold = true) :
    exec (.coldRstNRise side smb t) s = .next (s.withM (s.m.setPins fun p => { p with coldRstN := true, testEn := t })) := by
  change execColdRstNRise side smb t s = _
  simp only [execColdRstNRise, runAlways, hc, hh, Bool.false_eq_true, if_false, if_true, State.withM]

end

/-- What a cold reset keeps and what it sets (Table 20.5). -/
theorem coldState_keeps (f : Fuses) {m : M} (h : m.err.degraded = false) :
    (coldState f m).err.slip = m.err.slip ∧ (coldState f m).err.log = [] ∧ (coldState f m).jpc.flash = m.jpc.flash
      ∧ (coldState f m).jpc.record = m.jpc.record ∧ (coldState f m).jpc.recordCopy = m.jpc.recordCopy
      ∧ (coldState f m).acc.tapIr = m.acc.tapIr ∧ (coldState f m).acc.jtagData = m.acc.jtagData
      ∧ (coldState f m).modeActive = (M.reset f).modeActive ∧ (coldState f m).regs = [] ∧ (coldState f m).ctrs = []
      ∧ (coldState f m).quo = [] ∧ (coldState f m).coh.tags = [] ∧ (coldState f m).coh.dir = [] ∧ (coldState f m).array = []
      ∧ (coldState f m).alive = false ∧ ∀ w, rd ⟨f, Cfg.reset f.variant⟩ (coldState f m) w = regReset f w := by
  refine ⟨?slip, rfl, rfl, rfl, rfl, rfl, rfl, rfl, rfl, rfl, rfl, rfl, rfl, rfl, rfl, fun _ => rfl⟩
  case slip => simp only [coldState, h, Bool.false_eq_true, if_false]

/-! ### IDCODE -/

/-- IDCODE by its part and the low digit of its stepping. -/
def idWord (full : Bool) (n : Fin 16) : Word :=
  BitVec.ofNat 32 (1 + 2 * 0x2B7 + 4096 * (if full then 0x2932 else 0x2916) + 2 ^ 28 * n)

theorem idWord_fields : ∀ (full : Bool) (n : Fin 16), (idWord full n).getLsbD 0 = true ∧ (idWord full n).extractLsb' 1 11 = 0x2B7
    ∧ (idWord full n).extractLsb' 12 16 = (if full then 0x2932 else 0x2916) ∧ (idWord full n).extractLsb' 28 4 = BitVec.ofNat 4 n := by
  decide

theorem idcode_eq (f : Fuses) :
    idcode f = idWord (f.variant.dacs = 8) ⟨f.stepping.toNat % 16, Nat.mod_lt _ (by decide)⟩ := by
  simp [idcode, idWord]

theorem idcode_fields (f : Fuses) : (idcode f).getLsbD 0 = true ∧ (idcode f).extractLsb' 1 11 = 0x2B7
    ∧ (idcode f).extractLsb' 12 16 = (if f.variant.dacs = 8 then 0x2932 else 0x2916)
    ∧ (idcode f).extractLsb' 28 4 = f.stepping.extractLsb' 0 4 := by
  obtain ⟨hone, hmaker, hpart, hstep⟩ := idWord_fields (f.variant.dacs = 8) ⟨f.stepping.toNat % 16, Nat.mod_lt _ (by decide)⟩
  rw [idcode_eq]
  refine ⟨hone, hmaker, hpart.trans (by simp), hstep.trans ?_⟩
  apply BitVec.eq_of_toNat_eq
  simp

/-! ### The balls that the TAP drives -/

theorem sideOut_highz {e : Env} {m : M} (k : Nat) (h : m.acc.tapIr = 3) : sideOut e m k = none := by
  simp [sideOut, h]

theorem sideOut_boundary {e : Env} {m : M} (k : Nat) (h : m.acc.tapIr = 0 ∨ m.acc.tapIr = 4) :
    sideOut e m k = if m.acc.boundary.getLsbD (576 + k) && k != 3 then none else some (m.acc.boundary.getLsbD (576 + k)) := by
  rcases h with h | h <;> simp [sideOut, sideCell, h]

theorem sideOut_ready {e : Env} {m : M} (h0 : m.acc.tapIr ≠ 0) (h3 : m.acc.tapIr ≠ 3) (h4 : m.acc.tapIr ≠ 4) :
    sideOut e m 3 = some m.pins.ready := by
  simp only [sideOut, beq_eq_false_iff_ne.mpr h0, beq_eq_false_iff_ne.mpr h3, beq_eq_false_iff_ne.mpr h4, bne_self_eq_false,
    Bool.and_false, Bool.or_self, Bool.false_eq_true, if_false, if_true]

/-! ### The TAP's instructions -/

theorem exec_tapReset {s : State} (hs : s.m.pins.testSampled = false) :
    exec .tapReset s = .next (s.withM (loseQuoins (s.m.setAcc fun a => { a with
      tapIr := 2, tapDr := (idcode s.fuse).setWidth 604 }) fun o => ownerPath o = 4)) := by
  change execTapReset s = _
  exact run_normal hs _

/-- The device as a boundary-scan instruction leaves and holds it. -/
def boundaryHeld (s : State) (ir : BitVec 8) : M :=
  let m := coldState s.fuse s.m
  let held := { m.pins with coldRstN := s.m.pins.coldRstN, jtagHold := true }
  { m with
    free := m.free + 19
    acc := { m.acc with
      tapIr := ir, tapDr := if ir = 0 then ballsSeen { m with acc := { m.acc with tapIr := ir }, pins := held } else 0 }
    pins := held }

theorem boundaryHold_next {s : State} (hs : s.m.pins.testSampled = false) (ir : BitVec 8) :
    boundaryHold s ir = .next { s.withM (boundaryHeld s ir) with cfg := Cfg.reset s.fuse.variant } := by
  unfold boundaryHold
  rw [runCfg_normal hs]
  rfl

/-- Settles O52. -/
theorem coldResetAndTap : Obligations.ColdResetAndTap := by
  refine ⟨fun s side t smb => ⟨exec_coldReset s, fun hc hh m => exec_coldRstNRise hc hh, exec_coldRstNRise_held, rfl, rfl⟩,
    fun f m => coldState_keeps f, idcode_fields, fun e m k _ _ => ⟨sideOut_highz k, sideOut_boundary k, sideOut_ready⟩,
    fun s hs => ⟨exec_tapReset hs, fun c ir hc m hm => ?hold⟩⟩
  case hold =>
    subst hm
    simp only [List.mem_cons, Prod.mk.injEq, List.not_mem_nil, or_false] at hc
    rcases hc with ⟨rfl, rfl⟩ | ⟨rfl, rfl⟩ | ⟨rfl, rfl⟩
    · exact boundaryHold_next hs 0
    · exact boundaryHold_next hs 3
    · exact boundaryHold_next hs 4

end Sys2Proof.Machine
end

section
/-!
O53 and O54. Warm reset (R881, R896 to R899), and bring-up (Table 20.2, R888 to R892).
-/

namespace Sys2Proof.Machine

open Sys2Proof

/-! ### Warm reset -/

/-- A warm reset that has just been recognised. -/
def recognised (m : M) : Warm := ⟨m.now, m.modeBit mMirror, false, 0⟩

section
variable {s : State} (h : Live s)
include h

theorem runCfg_kept {f : Fuses → Cfg → M → Cfg × M} {m : M} (hf : f s.fuse s.cfg s.m = (s.cfg, fin s.env m)) :
    runCfg s f = .next (s.after m) := by
  rw [runCfg_live h, hf, State.after]
  simp only [State.withM]
theorem runCfg_warmed {f : Fuses → Cfg → M → Cfg × M} {m : M} {w : Warm} (hf : f s.fuse s.cfg s.m = finishWarm s.env m w) :
    runCfg s f = .next (s.warmed m w) := by
  rw [runCfg_live h, hf]
  rfl

section
variable (hr : s.m.boot.relock = false) (hw : s.m.boot.warm = none)
include hr hw

theorem warmReset_taken : ¬ (!s.m.alive || s.m.boot.relock || s.m.boot.warm.isSome) = true := by simp [h.1, hr, hw]

theorem exec_warmReset_bringUp (hp : s.m.boot.phase ≠ 8) : exec .warmReset s = .next (s.warmed s.m (recognised s.m)) := by
  change execWarmReset s = _
  exact runCfg_warmed h ((if_neg (warmReset_taken h hr hw)).trans (if_pos hp))

theorem exec_warmReset_ready {m : M} (hp : s.m.boot.phase = 8)
    (hm : m = (s.m.setPins fun p => { p with ready := false }).setBoot fun b => { b with warm := some (recognised s.m) }) :
    exec .warmReset s = .next (s.after (flushAllSticks s.env m 8)) := by
  subst hm
  change execWarmReset s = _
  exact runCfg_kept h ((if_neg (warmReset_taken h hr hw)).trans (if_neg (not_not.mpr hp)))

end

section
variable {w : Warm} (hw : s.m.boot.warm = some w) (hd : w.draining = false)
  (hall : [HPort.hpa, .hpb].any (fun p => passedBefore s.m p (s.m.mode.gen + 1)) = false)
include hw hd hall

theorem exec_warmResponseWait_mirrored (hm : w.mirror = true) :
    exec .warmResponseWait s = .next (s.after (s.m.setBoot fun b => { b with warm := some { w with draining := true } })) := by
  change execWarmResponseWait s = _
  exact runCfg_kept h (by simp only [h.1, hw, hd, hall, hm, Bool.not_true, Bool.not_false, Bool.or_self, Bool.false_eq_true,
    if_false, if_true, State.env])

theorem exec_warmResponseWait_done (hm : w.mirror = false) : exec .warmResponseWait s = .next (s.warmed s.m w) := by
  change execWarmResponseWait s = _
  exact runCfg_warmed h (by simp only [h.1, hw, hd, hall, hm, Bool.not_true, Bool.not_false, Bool.or_self, Bool.false_eq_true,
    if_false, if_true, State.env])

end

theorem exec_warmDrainEnd {w : Warm} {m : M} (hw : s.m.boot.warm = some w) (hd : w.draining = true)
    (hm : m = (if dirtyPrimary s.m = [] then s.m else elapseTo s.env s.m (w.start + 200000000))) :
    exec .warmDrainEnd s = .next (s.warmed m w) := by
  subst hm
  change execWarmDrainEnd s = _
  exact runCfg_warmed h (by simp only [h.1, hw, hd, Bool.not_true, Bool.or_self, Bool.false_eq_true, if_false, List.isEmpty_iff,
    State.env])

end

/-- Settles O53. -/
theorem warmReset : Obligations.WarmReset := fun _ _ _ h =>
  ⟨exec_warmReset_bringUp h, fun hr hw => exec_warmReset_ready h hr hw,
    fun hw hd hall => ⟨exec_warmResponseWait_mirrored h hw hd hall, exec_warmResponseWait_done h hw hd hall⟩, exec_warmDrainEnd h⟩

/-! ### Bring-up -/

section
variable {s : State} (h : Live s) (hs : s.m.boot.stopped = false) (hw : s.m.boot.warm = none)
include hs hw

theorem bringUp_open : ¬ (s.m.boot.stopped || s.m.boot.warm.isSome) = true := by simp [hs, hw]

include h

theorem exec_bringupPhaseEnd_start (hp : s.m.boot.phase = 1) : exec .bringupPhaseEnd s = .next (s.after (nextPhase s.m)) := by
  change execBringupPhaseEnd s = _
  exact act_next h ((if_neg (bringUp_open hs hw)).trans (by simp only [hp]))

section
variable (hfw : s.m.jpc.fw = .running)
include hfw

theorem exec_bringupPhaseEnd_firmware (hp : s.m.boot.phase = 2) :
    exec .bringupPhaseEnd s = .next (s.after (startTraining s.env (nextPhase s.m))) := by
  change execBringupPhaseEnd s = _
  exact act_next h ((if_neg (bringUp_open hs hw)).trans (by rw [hp]; exact if_pos (beq_iff_eq.mpr hfw)))

theorem exec_bringupPhaseEnd_arrays (hp : s.m.boot.phase = 4) :
    exec .bringupPhaseEnd s = .next (s.after (releasePorts (nextPhase (initArrays s.m)))) := by
  change execBringupPhaseEnd s = _
  exact act_next h ((if_neg (bringUp_open hs hw)).trans (by rw [hp]; exact if_pos (beq_iff_eq.mpr hfw)))

theorem exec_bringupPhaseEnd_links (hp : s.m.boot.phase = 5) (hl : ∀ l : Lnk, l ≠ .ckl → (s.m.link l).st = .active) :
    exec .bringupPhaseEnd s = .next (s.after (enterPairing s.env s.m)) := by
  have hall : (s.m.jpc.fw == .running && [Lnk.hpa, .hpb, .mpa, .mpb].all fun l => (s.m.link l).st == .active) = true := by
    simp [hfw, hl]
  change execBringupPhaseEnd s = _
  exact act_next h ((if_neg (bringUp_open hs hw)).trans (by rw [hp]; exact if_pos hall))

theorem exec_linkPhaseTimeout (hp : s.m.boot.phase = 5) (hl : (s.m.link .hpa).st ≠ .active) :
    exec .linkPhaseTimeout s = .next (s.after (enterPairing s.env (elapseTo s.env s.m (s.m.boot.since + 10000000)))) := by
  change execLinkPhaseTimeout s = _
  exact act_next h ((if_neg (by simp [hs, hw, hp, hfw])).trans (if_neg (by simp [hl])))

theorem exec_bringupPhaseEnd_pairing (hp : s.m.boot.phase = 6) (hh : s.m.twin.st ≠ .hello) (hsh : s.m.twin.st ≠ .shed) :
    exec .bringupPhaseEnd s = .next (s.after (nextPhase s.m)) := by
  change execBringupPhaseEnd s = _
  exact act_next h ((if_neg (bringUp_open hs hw)).trans (by rw [hp]; exact if_pos (by simp [hfw, hh, hsh])))

theorem exec_bringupPhaseEnd_ready (hp : s.m.boot.phase = 7) :
    exec .bringupPhaseEnd s = .next (s.after (raiseReady s.m)) := by
  change execBringupPhaseEnd s = _
  exact act_next h ((if_neg (bringUp_open hs hw)).trans (by rw [hp]; exact if_pos (beq_iff_eq.mpr hfw)))

end

end

/-- Settles O54. -/
theorem bringUp : Obligations.BringUp := fun _ h hs hw =>
  ⟨exec_bringupPhaseEnd_start h hs hw, fun hfw => ⟨exec_bringupPhaseEnd_firmware h hs hw hfw, exec_bringupPhaseEnd_arrays h hs hw hfw,
    exec_bringupPhaseEnd_links h hs hw hfw, exec_linkPhaseTimeout h hs hw hfw, exec_bringupPhaseEnd_pairing h hs hw hfw,
    exec_bringupPhaseEnd_ready h hs hw hfw⟩⟩

end Sys2Proof.Machine
end
